-- ==== Sys2Proof/Word.lean ====
section
/-!
DEFINITION. The word types of math_sim CORE (00_scope.md R5, R6) and the sign of a word.
Bit 0 is the least significant bit of every pattern (R6).
-/

namespace Sys2Proof

/-- A Word: "an exact 32-bit unsigned bit pattern" (R6), the type of registers, addresses and ALU operands. -/
abbrev Word := BitVec 32

/-- One byte of the data memory (20_memory.md R50). -/
abbrev Byte := BitVec 8

/-- One encoded instruction, the unit of the program store (30_encoding.md R83, 10_state.md R33). -/
abbrev ProgWord := BitVec 128

/-- An index into the program store: the program counter and `err_pc` (10_state.md R24, R32). -/
abbrev ProgIndex := BitVec 32

/-- `sign(w)` is `w[31]` (R6). -/
abbrev sign (w : Word) : Bool := w.getLsbD 31

end Sys2Proof
end

