-- ==== Sys2Proof/Config.lean ====
section
/-!
DEFINITION. The parameters of the hardware with their values (00_scope.md R5, decision D22), and the one free
value of the model. `XLEN` = 32, `NREG` = 32 and the widths of the encoded fields are written as numerals in the types
(`BitVec 32`, `Vector Word 32`, `Fin 32`).
-/

namespace Sys2Proof.Config

/-- `MEM_SIZE`, the size of the data memory in bytes (R5, R50). -/
@[simp] abbrev memSize : Nat := 65536

/-- `WORD_BYTES`, the only access width and the alignment (R5, R52). -/
@[simp] abbrev wordBytes : Nat := 4

/-- `STEP_LIMIT`, the greatest number of instructions one run may dispatch (R5, R143). -/
@[simp] abbrev stepLimit : Nat := 1000000

/-- `PLEN_MAX`, the greatest program length, `2^32 - 1` (R5, decision D4). -/
@[simp] abbrev plenMax : Nat := 4294967295

/-- What byte `a` of a memory holds that was never initialised: the spec calls it undefined
(93_implementation_defined.md U2), so it is a free value and has no body. DESIGN CHOICE (safe), log entry 4. -/
opaque powerUpByte : Nat → Byte

end Sys2Proof.Config
end

