-- ==== Sys2Proof/Syntax.lean ====
section
/-!
DEFINITION. The 11 instructions (30_encoding.md R80, R81, R86), one constructor for each row of the opcode table.
An instruction carries the fields its opcode uses, at the record level of R80: register indices are signed integers,
the immediate is a signed integer, the target an unsigned one. A field that an opcode does not use has no place here,
because it has no effect on execution (R88, decision D7, log entry 13).
-/

namespace Sys2Proof

/-- The closed opcode set (R86) with the operands of R81. -/
inductive Instr where
  /-- `LoadConst Rd, imm` (R160). -/
  | loadConst (dst : Int) (imm : Int)
  /-- `Add Rd, Rs` (R165). -/
  | add (dst src : Int)
  /-- `Subtract Rd, Rs` (R166). -/
  | subtract (dst src : Int)
  /-- `Multiply Rd, Rs` (R167). -/
  | multiply (dst src : Int)
  /-- `Divide Rd, Rs` (R168). -/
  | divide (dst src : Int)
  /-- `Compare Rd, Rs` (R169). -/
  | compare (dst src : Int)
  /-- `Jump t` (R180). -/
  | jump (target : Nat)
  /-- `JumpIfZero t` (R181). -/
  | jumpIfZero (target : Nat)
  /-- `JumpIfNotZero t` (R182). -/
  | jumpIfNotZero (target : Nat)
  /-- `Load Rd, [Ra]` (R190). -/
  | load (dst areg : Int)
  /-- `Store Rs, [Ra]` (R191). -/
  | store (src areg : Int)
  deriving DecidableEq, Repr

end Sys2Proof
end

