-- ==== Sys2Proof/Machine/State.lean ====
section
/-!
DEFINITION. The machine state as plain data (10_state.md, 00_scope.md R17), the reasons a model step can stop, and
the state at power-up.
-/

namespace Sys2Proof.Machine

/-- A register index that passed `RegOK`: 0..31 (R8, R21). -/
abbrev RegIdx := Fin 32

/-- The four flags, "four independent single-bit fields" (R26). -/
structure Flags where
  z : Bool
  n : Bool
  c : Bool
  v : Bool
  deriving DecidableEq, Repr

/-- The status register (R31, decision D11). -/
inductive Status where
  | idle
  | running
  | halted
  | faulted
  deriving DecidableEq, Repr

/-- The nine error kinds (60_exceptions.md R200). -/
inductive ErrorKind where
  | registerOutOfRange
  | jumpTargetOutOfRange
  | unalignedMemoryAccess
  | memoryOutOfBounds
  | memoryNotAttached
  | divisionByZero
  | stepLimitExceeded
  | emptyProgram
  | unknownOpcode
  deriving DecidableEq, Repr

/-- The memory controller's two failures (20_memory.md R57). -/
inductive MemError where
  | alignment
  | bounds
  deriving DecidableEq, Repr

/-- The data memory (R34, R50): `cells` lists the bytes that differ from what an unlisted address reads as, addresses
strictly rising (`Memory.wf`); `initialised` is the model's own field: whether Initialize was ever called (log entry 4). -/
structure Memory where
  cells : List Host.Cell
  initialised : Bool
  deriving DecidableEq, Repr

/-- Everything the spec gives the machine (R17, R20 to R36). `plen` is the length of `prog` (`State.plen`). -/
structure State where
  /-- `x[0..31]` (R20). -/
  regs : Vector Word 32
  /-- The flags (R26). -/
  flags : Flags
  /-- The program counter, an index into the program store (R24). -/
  pc : ProgIndex
  /-- The dispatch counter (R28). -/
  steps : BitVec 32
  /-- The register most recently written (R30). -/
  last : RegIdx
  /-- Whether any tracked write has happened in this run (R30). -/
  lastValid : Bool
  /-- The status register (R31). -/
  status : Status
  /-- `err_kind`: none is code 0 (R32, R200). -/
  errKind : Option ErrorKind
  /-- `err_pc` (R32). -/
  errPc : ProgIndex
  /-- The reported result (R36). -/
  result : BitVec 64
  /-- Whether a register's value is reported (R36). -/
  resultValid : Bool
  /-- The program store, sampled at Start (R33, R38). -/
  prog : List ProgWord
  /-- Whether a memory is attached, sampled at Start (R35). -/
  memPresent : Bool
  /-- The data memory (R34). -/
  mem : Memory
  deriving DecidableEq, Repr

/-- Why a model step stops with a fault. The nine error kinds of the spec are NOT here: they are taken as next states
whose status is Faulted (R212). -/
inductive Fault where
  /-- Raised by `step` alone, when the machine is Running and `pc` is beyond `plen`: `Prog[pc]` is then not defined
  (00_scope.md R8, 41_execution_loop.md R142 "cannot occur"). Safe: no run reaches it (log entry 7). -/
  | fetchOutsideProgram
  deriving DecidableEq, Repr

/-- Why the model gives no meaning. -/
inductive Refusal where
  /-- Raised by an arm of `exec` whose instruction has no meaning yet: none at present. Safe. -/
  | notModelled (mnemonic : String)
  /-- Raised by `hostAct` alone, for a host action during a run, when "the host has no move" (00_scope.md R18, decision
  D24). Unsafe only in that a real host might break the rule (log entry 10). -/
  | hostWhileRunning
  /-- Raised by `hostAct` alone, for a Start with a program longer than `PLEN_MAX`, which cannot be presented to the
  block (93_implementation_defined.md U8). Safe (log entry 9). -/
  | programTooLong
  deriving DecidableEq, Repr

/-- What one step, or one instruction, answers. -/
abbrev Outcome := Host.Outcome State Fault Refusal

/-- The machine at power-up, before any Start: `status = Idle` (R38, R242). Every other register is unspecified there;
each is zero here, with an empty program store and no memory attached (DESIGN CHOICE, unsafe, log entries 1 and 2), and a
memory nobody has initialised (log entry 4). The values the spec states for CPU reset are those `start` writes. -/
def State.reset : State :=
  { regs := Vector.replicate 32 0
    flags := { z := false, n := false, c := false, v := false }
    pc := 0
    steps := 0
    last := 0
    lastValid := false
    status := .idle
    errKind := none
    errPc := 0
    result := 0
    resultValid := false
    prog := []
    memPresent := false
    mem := { cells := [], initialised := false } }

end Sys2Proof.Machine
end

