-- ==== Sys2Proof/Machine/Flags.lean ====
section
/-!
DEFINITION. The ALU: the ripple-carry adder, the four operations and every flag computation (40_alu.md R110 to R118).
-/

namespace Sys2Proof.Machine

/-- Sum bit of one full adder (40_alu.md R111). -/
def fullAdderSum (x y c : Bool) : Bool := x ^^ y ^^ c

/-- Carry out of one full adder (R111). -/
def fullAdderCarry (x y c : Bool) : Bool := (x && y) || (x && c) || (y && c)

/-- The ripple-carry chain after bit positions `0 .. n-1`: the sum bits so far and the carry `c[n]` (R111). -/
def rippleStage (a b : Word) (cin : Bool) : Nat → Word × Bool
  | 0 => (0, cin)
  | n + 1 =>
    match rippleStage a b cin n with
    | (s, c) =>
      (s ||| (BitVec.setWidth 32 (BitVec.ofBool (fullAdderSum (a.getLsbD n) (b.getLsbD n) c)) <<< n),
        fullAdderCarry (a.getLsbD n) (b.getLsbD n) c)

/-- `RippleAdd(a, b, cin)`: the sum and the carry out of bit 31 (R111). -/
def rippleAdd (a b : Word) (cin : Bool) : Word × Bool := rippleStage a b cin 32

/-- What an ALU operation returns: `r` and the flags record `f` (R110). -/
structure AluOut where
  r : Word
  f : Flags
  deriving DecidableEq, Repr

/-- Z and N from the 32-bit result (R117), with the operation's own C and V. -/
def flagsOf (r : Word) (c v : Bool) : Flags :=
  { z := decide (r = 0), n := sign r, c := c, v := v }

/-- `ALU.Add(a, b)` (R113). -/
def aluAdd (a b : Word) : AluOut :=
  match rippleAdd a b false with
  | (r, cout) => { r := r, f := flagsOf r cout ((sign a == sign b) && (sign r != sign a)) }

/-- `ALU.Subtract(a, b)`: `a` plus the complement of `b` with carry-in 1 (R114). -/
def aluSubtract (a b : Word) : AluOut :=
  match rippleAdd a (~~~b) true with
  | (r, cout) => { r := r, f := flagsOf r cout ((sign a != sign b) && (sign r != sign a)) }

/-- `ALU.Multiply(a, b)`: the low 32 bits of the full product; C and V are 0 (R115, 90_conflicts.md C3). -/
def aluMultiply (a b : Word) : AluOut :=
  let r := BitVec.ofNat 32 (a.toNat * b.toNat)
  { r := r, f := flagsOf r false false }

/-- `ALU.Divide(a, b)`: the unsigned quotient; C and V are 0 (R116). The operation has the precondition `b ≠ 0` and no
value without it (93_implementation_defined.md U1, log entry 12). -/
def aluDivide (a b : Word) (_nonzero : b ≠ 0) : AluOut :=
  let r := BitVec.ofNat 32 (a.toNat / b.toNat)
  { r := r, f := flagsOf r false false }

/-- The operation select (R110). -/
inductive AluOp where
  | add
  | subtract
  | multiply
  | divide
  deriving DecidableEq, Repr

/-- The `alu_op` port (R110, decision D18). -/
def aluOpCode : AluOp → BitVec 2
  | .add => 0
  | .subtract => 1
  | .multiply => 2
  | .divide => 3

/-- The ALU block (R110): its outputs depend on its inputs alone, and Divide is never asked for with divisor 0. -/
def alu (op : AluOp) (a b : Word) (guarded : ¬ (op = .divide ∧ b = 0)) : AluOut :=
  match op, guarded with
  | .add, _ => aluAdd a b
  | .subtract, _ => aluSubtract a b
  | .multiply, _ => aluMultiply a b
  | .divide, h => aluDivide a b (fun hb => h ⟨rfl, hb⟩)

/-- The four flags on one 4-bit port: bit 0 Z, bit 1 N, bit 2 C, bit 3 V (R26, decision D17). -/
def Flags.pack (f : Flags) : BitVec 4 :=
  BitVec.ofBool f.v ++ BitVec.ofBool f.c ++ BitVec.ofBool f.n ++ BitVec.ofBool f.z

end Sys2Proof.Machine
end

