-- ==== Sys2Proof/Machine/Memory.lean ====
section
/-!
DEFINITION. The memory controller: Initialize, ReadWord, WriteWord (20_memory.md R50 to R58), over the list of cells
and its canonical form.
-/

namespace Sys2Proof.Machine

/-- What an unlisted address reads as: 0 once Initialize has been called (R54), else a free value, because the contents
are undefined before it (93_implementation_defined.md U2; log entry 4). -/
def backgroundByte (initialised : Bool) (a : Nat) : Byte :=
  if initialised then 0 else Config.powerUpByte a

/-- The byte listed at `a`, or `bg` where none is listed. -/
def getCell (bg : Byte) (a : Nat) : List Host.Cell → Byte
  | [] => bg
  | (k, v) :: rest => if k = a then v else getCell bg a rest

/-- Put byte `b` at `a`, in address order; a byte equal to the background is not listed. -/
def putCell (bg : Byte) (a : Nat) (b : Byte) : List Host.Cell → List Host.Cell
  | [] => if b = bg then [] else [(a, b)]
  | (k, v) :: rest =>
    if a < k then (if b = bg then (k, v) :: rest else (a, b) :: (k, v) :: rest)
    else if a = k then (if b = bg then rest else (a, b) :: rest)
    else (k, v) :: putCell bg a b rest

/-- The canonical form from address `lo` up: addresses strictly rising and inside the memory, no cell equal to the
background. -/
def cellsWf (initialised : Bool) (lo : Nat) : List Host.Cell → Bool
  | [] => true
  | (k, v) :: rest =>
    decide (lo ≤ k) && decide (k < Config.memSize) && decide (v ≠ backgroundByte initialised k) &&
      cellsWf initialised (k + 1) rest

/-- The memory is in canonical form, so that equal contents are equal data. -/
def Memory.wf (m : Memory) : Bool := cellsWf m.initialised 0 m.cells

/-- `mem[a]` (R9). -/
def Memory.readByte (m : Memory) (a : Nat) : Byte :=
  getCell (backgroundByte m.initialised a) a m.cells

/-- `mem[a] <- b`. -/
def Memory.writeByte (m : Memory) (a : Nat) (b : Byte) : Memory :=
  { m with cells := putCell (backgroundByte m.initialised a) a b m.cells }

/-- `Check(addr)` of R53: alignment first, then bounds (decision D13); the bound is on the address itself (R58). -/
def checkAddr (addr : Word) : Option MemError :=
  if addr.toNat % Config.wordBytes ≠ 0 then some .alignment
  else if addr.toNat > Config.memSize - Config.wordBytes then some .bounds
  else none

/-- Four bytes as a little-endian word, `b0` at the lowest address (R51). -/
def wordOfBytes (b0 b1 b2 b3 : Byte) : Word := b3 ++ b2 ++ b1 ++ b0

/-- Byte `i` of a word, `w[8i+7 : 8i]` (R51). -/
def byteOfWord (w : Word) (i : Nat) : Byte := w.extractLsb' (8 * i) 8

/-- Initialize: zero-fill the whole memory (R54). -/
def Memory.clear (_m : Memory) : Memory := { cells := [], initialised := true }

/-- ReadWord (R55). -/
def Memory.readWord (m : Memory) (addr : Word) : Except MemError Word :=
  match checkAddr addr with
  | some e => .error e
  | none =>
    let a := addr.toNat
    .ok (wordOfBytes (m.readByte a) (m.readByte (a + 1)) (m.readByte (a + 2)) (m.readByte (a + 3)))

/-- Replace the four bytes from `a` on by `v`, little-endian (R51). -/
def Memory.putWord (m : Memory) (a : Nat) (v : Word) : Memory :=
  (((m.writeByte a (byteOfWord v 0)).writeByte (a + 1) (byteOfWord v 1)).writeByte (a + 2)
    (byteOfWord v 2)).writeByte (a + 3) (byteOfWord v 3)

/-- WriteWord (R56): on an error no byte is written. -/
def Memory.writeWord (m : Memory) (addr : Word) (v : Word) : Except MemError Memory :=
  match checkAddr addr with
  | some e => .error e
  | none => .ok (m.putWord addr.toNat v)

/-- The error kind the CPU raises for a memory error (R57, decision D26). -/
def MemError.kind : MemError → ErrorKind
  | .alignment => .unalignedMemoryAccess
  | .bounds => .memoryOutOfBounds

/-- The `m_err` and `h_err` port: 0 is ok (R57). -/
def memErrCode : Option MemError → BitVec 2
  | none => 0
  | some .alignment => 1
  | some .bounds => 2

end Sys2Proof.Machine
end

