-- ==== Sys2Proof/Machine/Operands.lean ====
section
/-!
DEFINITION. Operand forms: register indices, the immediate, jump targets, and the sign extension of the result.
-/

namespace Sys2Proof.Machine

/-- `RegOK(i)`: `0 <= i and i <= 31` (00_scope.md R12, 10_state.md R21). -/
abbrev RegOK (i : Int) : Prop := 0 ≤ i ∧ i ≤ 31

/-- The register an index field names, where it is valid; never clamped, never reduced modulo 32 (R21). -/
def regIndex (i : Int) : Option RegIdx :=
  if h : RegOK i then some ⟨i.toNat, by obtain ⟨h0, h1⟩ := h; omega⟩ else none

/-- `trunc_32(i)`: the pattern with `uint = i mod 2^32` (00_scope.md R7, 30_encoding.md R85). -/
def trunc32 (i : Int) : Word := BitVec.ofInt 32 i

/-- `sext_64(v)` (R7). -/
def sext64 (w : Word) : BitVec 64 := w.signExtend 64

/-- A jump target is valid when `t <= plen` (44_control.md R183). -/
abbrev TargetOK (t plen : Nat) : Prop := t ≤ plen

end Sys2Proof.Machine
end

