-- ==== Sys2Proof/Machine/Ops.lean ====
section
/-!
DEFINITION. The shared operations over State: reading and writing registers, flags and pc, taking a fault, the halt,
the dispatch counter and Start.
-/

namespace Sys2Proof.Machine

/-- `plen`, the number of instructions in the program store (10_state.md R33). -/
def State.plen (s : State) : Nat := s.prog.length

/-- `x[i]` (00_scope.md R8); no register is hardwired (R20). -/
def State.readReg (s : State) (i : RegIdx) : Word := s.regs[i]

/-- `WriteReg(d, v)`: the one way a register is written, which also moves the tracker (41_execution_loop.md R149). -/
def State.writeReg (s : State) (d : RegIdx) (v : Word) : State :=
  { s with regs := s.regs.set d v, last := d, lastValid := true }

/-- `flags <- f`: all four at once (R27). -/
def State.setFlags (s : State) (f : Flags) : State := { s with flags := f }

/-- `pc <- t` (R8). -/
def State.setPc (s : State) (t : ProgIndex) : State := { s with pc := t }

/-- `pc <- pc + 1` (R146). -/
def State.advance (s : State) : State := { s with pc := s.pc + 1 }

/-- Replace the data memory. -/
def State.setMem (s : State) (m : Memory) : State := { s with mem := m }

/-- `steps <- steps + 1` (R143). -/
def State.countDispatch (s : State) : State := { s with steps := s.steps + 1 }

/-- Fault entry, `raise K(p)`: three registers are written and nothing else changes (60_exceptions.md R212). There is no
handler and no return from a fault (R213). -/
def State.raise (s : State) (k : ErrorKind) (p : ProgIndex) : State :=
  { s with status := .faulted, errKind := some k, errPc := p }

/-- A fault of the instruction at `pc` as an outcome: a NEXT state, since the spec describes the entry (R212; log entry
6). -/
def faultAtPc (k : ErrorKind) (s : State) : Outcome := .next (s.raise k s.pc)

/-- `Halt()`: the result is the last-written register, sign-extended, or 0 when nothing was written (R142, R147). -/
def State.halt (s : State) : State :=
  { s with
    status := .halted
    result := if s.lastValid then sext64 (s.readReg s.last) else 0
    resultValid := s.lastValid }

/-- The CPU reset that every Start performs, on sampled inputs (10_state.md R38, 41_execution_loop.md R140); the memory is
left as it is. -/
def State.cpuReset (s : State) (prog : List ProgWord) (memPresent : Bool) : State :=
  { regs := Vector.replicate 32 0
    flags := { z := false, n := false, c := false, v := false }
    pc := 0
    steps := 0
    last := 0
    lastValid := false
    status := .running
    errKind := none
    errPc := 0
    result := 0
    resultValid := false
    prog := prog
    memPresent := memPresent
    mem := s.mem }

/-- `Start(Prog, plen, mem_present)`: reset, then reject an empty program (R140, R208). -/
def State.start (s : State) (prog : List ProgWord) (memPresent : Bool) : State :=
  if prog = [] then (s.cpuReset prog memPresent).raise .emptyProgram 0
  else s.cpuReset prog memPresent

/-- The code of an error kind (60_exceptions.md R200, decision D10). -/
def errorCode : ErrorKind → BitVec 4
  | .registerOutOfRange => 1
  | .jumpTargetOutOfRange => 2
  | .unalignedMemoryAccess => 3
  | .memoryOutOfBounds => 4
  | .memoryNotAttached => 5
  | .divisionByZero => 6
  | .stepLimitExceeded => 7
  | .emptyProgram => 8
  | .unknownOpcode => 9

/-- The `err_kind` port: 0 when no fault has occurred in this run (10_state.md R32). -/
def State.errKindPort (s : State) : BitVec 4 :=
  match s.errKind with
  | none => 0
  | some k => errorCode k

end Sys2Proof.Machine
end

