-- ==== Sys2Proof/Machine/Arithmetic.lean ====
section
/-!
DEFINITION. The meanings of Add, Subtract, Multiply, Divide and Compare (43_arithmetic.md).
-/

namespace Sys2Proof.Machine

/-- `Arith(Op)` (R170): both indices validated, both operands read before anything is written, the zero divisor tested
by the CPU and not by the ALU (R168), then the register, the tracker, the four flags and pc. -/
def execArith (op : AluOp) (dst src : Int) (s : State) : Outcome :=
  match regIndex dst, regIndex src with
  | some d, some r =>
    if h : op = .divide ∧ s.readReg r = 0 then faultAtPc .divisionByZero s
    else
      let out := alu op (s.readReg d) (s.readReg r) h
      .next (((s.writeReg d out.r).setFlags out.f).advance)
  | _, _ => faultAtPc .registerOutOfRange s

/-- Add (R165). -/
def execAdd (dst src : Int) (s : State) : Outcome := execArith .add dst src s

/-- Subtract (R166). -/
def execSubtract (dst src : Int) (s : State) : Outcome := execArith .subtract dst src s

/-- Multiply (R167). -/
def execMultiply (dst src : Int) (s : State) : Outcome := execArith .multiply dst src s

/-- Divide (R168). -/
def execDivide (dst src : Int) (s : State) : Outcome := execArith .divide dst src s

/-- Compare (R169): the flags of Subtract; no register and no tracker. -/
def execCompare (dst src : Int) (s : State) : Outcome :=
  match regIndex dst, regIndex src with
  | some d, some r => .next ((s.setFlags (aluSubtract (s.readReg d) (s.readReg r)).f).advance)
  | _, _ => faultAtPc .registerOutOfRange s

end Sys2Proof.Machine
end

