-- ==== Sys2Proof/Machine/Control.lean ====
section
/-!
DEFINITION. The meanings of Jump, JumpIfZero and JumpIfNotZero (44_control.md).
-/

namespace Sys2Proof.Machine

/-- The taken jump, common to the three: the target is checked only here (R183), and no increment follows (R146). -/
def takeJump (target : Nat) (s : State) : Outcome :=
  if TargetOK target s.plen then .next (s.setPc (BitVec.ofNat 32 target))
  else faultAtPc .jumpTargetOutOfRange s

/-- Jump (R180). -/
def execJump (target : Nat) (s : State) : Outcome := takeJump target s

/-- JumpIfZero (R181): an untaken jump does not examine its target (90_conflicts.md C2). -/
def execJumpIfZero (target : Nat) (s : State) : Outcome :=
  if s.flags.z then takeJump target s else .next s.advance

/-- JumpIfNotZero (R182). -/
def execJumpIfNotZero (target : Nat) (s : State) : Outcome :=
  if s.flags.z then .next s.advance else takeJump target s

end Sys2Proof.Machine
end

