-- ==== Sys2Proof/Machine/LoadConst.lean ====
section
/-!
DEFINITION. The meaning of LoadConst (42_loadconst.md).
-/

namespace Sys2Proof.Machine

/-- LoadConst (R160): the low 32 bits of the immediate; no flag is written. -/
def execLoadConst (dst imm : Int) (s : State) : Outcome :=
  match regIndex dst with
  | some d => .next ((s.writeReg d (trunc32 imm)).advance)
  | none => faultAtPc .registerOutOfRange s

end Sys2Proof.Machine
end

