-- ==== Sys2Proof/Machine/LoadStore.lean ====
section
/-!
DEFINITION. The meanings of Load and Store (45_loadstore.md). The effective address is the whole value of the address
register; the checks are in the order of R190 and R191 (decision D16).
-/

namespace Sys2Proof.Machine

/-- Load (R190). -/
def execLoad (dst areg : Int) (s : State) : Outcome :=
  match regIndex dst, regIndex areg with
  | some d, some a =>
    if s.memPresent then
      match s.mem.readWord (s.readReg a) with
      | .ok v => .next ((s.writeReg d v).advance)
      | .error e => faultAtPc e.kind s
    else faultAtPc .memoryNotAttached s
  | _, _ => faultAtPc .registerOutOfRange s

/-- Store (R191): the data register travels in the `src` field (decision D6). -/
def execStore (src areg : Int) (s : State) : Outcome :=
  match regIndex src, regIndex areg with
  | some r, some a =>
    if s.memPresent then
      match s.mem.writeWord (s.readReg a) (s.readReg r) with
      | .ok m => .next ((s.setMem m).advance)
      | .error e => faultAtPc e.kind s
    else faultAtPc .memoryNotAttached s
  | _, _ => faultAtPc .registerOutOfRange s

end Sys2Proof.Machine
end

