-- ==== Sys2Proof/Machine/Dispatch.lean ====
section
/-!
DEFINITION. Dispatch by opcode (41_execution_loop.md R145): one arm for each instruction.
-/

namespace Sys2Proof.Machine

/-- The instruction's own part of a step. -/
def exec (i : Instr) (s : State) : Host.Outcome State Fault Refusal :=
  match i with
  | .loadConst dst imm => Sys2Proof.Machine.execLoadConst dst imm s
  | .add dst src => Sys2Proof.Machine.execAdd dst src s
  | .subtract dst src => Sys2Proof.Machine.execSubtract dst src s
  | .multiply dst src => Sys2Proof.Machine.execMultiply dst src s
  | .divide dst src => Sys2Proof.Machine.execDivide dst src s
  | .compare dst src => Sys2Proof.Machine.execCompare dst src s
  | .jump target => Sys2Proof.Machine.execJump target s
  | .jumpIfZero target => Sys2Proof.Machine.execJumpIfZero target s
  | .jumpIfNotZero target => Sys2Proof.Machine.execJumpIfNotZero target s
  | .load dst areg => Sys2Proof.Machine.execLoad dst areg s
  | .store src areg => Sys2Proof.Machine.execStore src areg s

end Sys2Proof.Machine
end

