-- ==== Sys2Proof/WellFormed.lean ====
section
/-!
DEFINITION. Well-formed instructions: those whose fields fit the binary layout of 30_encoding.md R83. An index outside
0..31 or a target beyond the program is NOT ill-formed: it is a valid instruction that faults when dispatched (R89).
-/

namespace Sys2Proof

/-- A register-index field is 8 bits, signed (R83, decision D3). -/
def regFieldOk (i : Int) : Bool := decide (-128 ≤ i) && decide (i ≤ 127)

/-- The target field is 32 bits, unsigned (R83, decision D4). -/
def targetFieldOk (t : Nat) : Bool := decide (t < 2 ^ 32)

/-- The immediate field is 64 bits, signed (R83, decision D5). -/
def immFieldOk (i : Int) : Bool := decide (-(2 ^ 63) ≤ i) && decide (i < 2 ^ 63)

/-- Every field of the instruction fits its place in the layout. -/
def Instr.wellFormed : Instr → Bool
  | .loadConst dst imm => regFieldOk dst && immFieldOk imm
  | .add dst src => regFieldOk dst && regFieldOk src
  | .subtract dst src => regFieldOk dst && regFieldOk src
  | .multiply dst src => regFieldOk dst && regFieldOk src
  | .divide dst src => regFieldOk dst && regFieldOk src
  | .compare dst src => regFieldOk dst && regFieldOk src
  | .jump target => targetFieldOk target
  | .jumpIfZero target => targetFieldOk target
  | .jumpIfNotZero target => targetFieldOk target
  | .load dst areg => regFieldOk dst && regFieldOk areg
  | .store src areg => regFieldOk src && regFieldOk areg

end Sys2Proof
end

