-- ==== Sys2Proof/Decode.lean ====
section
/-!
DEFINITION. The decoder and the encoder (30_encoding.md R83 to R88). Decoding a word into the six-field record is
total (R84); selecting the instruction rejects an unknown opcode by name (R87).
-/

namespace Sys2Proof

/-- The instruction record: the six fields of R80. -/
structure InstrRecord where
  opcode : BitVec 8
  dst : Int
  src : Int
  areg : Int
  target : Nat
  imm : Int
  deriving DecidableEq, Repr

/-- Why a word is no instruction. -/
inductive DecodeError where
  /-- The opcode byte is none of the 11 (R87). -/
  | unknownOpcode (opcode : BitVec 8)
  deriving DecidableEq, Repr

/-- `Decode(W)` of R84 over the layout of R83. -/
def decodeRecord (w : ProgWord) : InstrRecord :=
  { opcode := w.extractLsb' 0 8
    dst := (w.extractLsb' 8 8).toInt
    src := (w.extractLsb' 16 8).toInt
    areg := (w.extractLsb' 24 8).toInt
    target := (w.extractLsb' 32 32).toNat
    imm := (w.extractLsb' 64 64).toInt }

/-- The opcode map of R86; the opcode alone selects the instruction (R82, R145), and fields it does not use are
dropped (R88). -/
def selectInstr (r : InstrRecord) : Except DecodeError Instr :=
  match r.opcode.toNat with
  | 0 => .ok (.loadConst r.dst r.imm)
  | 1 => .ok (.add r.dst r.src)
  | 2 => .ok (.subtract r.dst r.src)
  | 3 => .ok (.multiply r.dst r.src)
  | 4 => .ok (.divide r.dst r.src)
  | 5 => .ok (.compare r.dst r.src)
  | 6 => .ok (.jump r.target)
  | 7 => .ok (.jumpIfZero r.target)
  | 8 => .ok (.jumpIfNotZero r.target)
  | 9 => .ok (.load r.dst r.areg)
  | 10 => .ok (.store r.src r.areg)
  | _ => .error (.unknownOpcode r.opcode)

/-- The instruction a word of the program store stands for. -/
def decode (w : ProgWord) : Except DecodeError Instr := selectInstr (decodeRecord w)

/-- The number of the instruction's opcode (R86, decision D2). -/
def opcodeOf : Instr → BitVec 8
  | .loadConst _ _ => 0
  | .add _ _ => 1
  | .subtract _ _ => 2
  | .multiply _ _ => 3
  | .divide _ _ => 4
  | .compare _ _ => 5
  | .jump _ => 6
  | .jumpIfZero _ => 7
  | .jumpIfNotZero _ => 8
  | .load _ _ => 9
  | .store _ _ => 10

/-- A field of the word: its bits from bit `lo` up, 0 elsewhere. -/
def placeField (lo : Nat) {n : Nat} (v : BitVec n) : ProgWord := (v.setWidth 128) <<< lo

/-- Lay the six fields out as R83 does: `opcode` [7:0], `dst` [15:8], `src` [23:16], `areg` [31:24], `target` [63:32],
`imm` [127:64]. -/
def packFields (opcode : BitVec 8) (dst src areg : Int) (target : Nat) (imm : Int) : ProgWord :=
  placeField 0 opcode ||| placeField 8 (BitVec.ofInt 8 dst) ||| placeField 16 (BitVec.ofInt 8 src) |||
    placeField 24 (BitVec.ofInt 8 areg) ||| placeField 32 (BitVec.ofNat 32 target) ||| placeField 64 (BitVec.ofInt 64 imm)

/-- The encoder: the word of an instruction, with zero in every field the opcode does not use (R88). -/
def encode (i : Instr) : ProgWord :=
  match i with
  | .loadConst dst imm => packFields (opcodeOf i) dst 0 0 0 imm
  | .add dst src => packFields (opcodeOf i) dst src 0 0 0
  | .subtract dst src => packFields (opcodeOf i) dst src 0 0 0
  | .multiply dst src => packFields (opcodeOf i) dst src 0 0 0
  | .divide dst src => packFields (opcodeOf i) dst src 0 0 0
  | .compare dst src => packFields (opcodeOf i) dst src 0 0 0
  | .jump target => packFields (opcodeOf i) 0 0 0 target 0
  | .jumpIfZero target => packFields (opcodeOf i) 0 0 0 target 0
  | .jumpIfNotZero target => packFields (opcodeOf i) 0 0 0 target 0
  | .load dst areg => packFields (opcodeOf i) dst 0 areg 0 0
  | .store src areg => packFields (opcodeOf i) 0 src areg 0 0

/-- The program-store word with the bits of `w` below `nbits`, and 0 above. The store delivers whole 128-bit words, so
no byte order enters (R83). -/
def tableWord (nbits w : Nat) : ProgWord := BitVec.ofNat 128 (w % 2 ^ nbits)

/-- The instruction the decoder reads from a word numbered as the opcode table numbers its bits. -/
def decodeTableWord (nbits w : Nat) : Option Instr := (decode (tableWord nbits w)).toOption

end Sys2Proof
end

