-- ==== Sys2Proof/Machine/Fetch.lean ====
section
/-!
DEFINITION. The part of a step common to every instruction (41_execution_loop.md R141 to R144), and where a word is put
so that the next step fetches it.
-/

namespace Sys2Proof.Machine

/-- What the tests before dispatch decide. -/
inductive Prologue where
  /-- The run ends here: a halt, or a fault of the loop itself. -/
  | ended (t : State)
  /-- Instruction `i` is dispatched in state `t`, whose `steps` already counts it. -/
  | dispatch (i : Instr) (t : State)
  /-- There is no instruction at `pc` and `pc` is not `plen`: no run reaches this (R142). -/
  | outside
  deriving DecidableEq, Repr

/-- Fetch and decode in a state whose counter has passed its test (R144); an unknown opcode faults before any field is
examined (60_exceptions.md R209). -/
def fetchDecode (s : State) : Prologue :=
  match s.prog[s.pc.toNat]? with
  | none => .outside
  | some w =>
    match decode w with
    | .ok i => .dispatch i s
    | .error (.unknownOpcode _) => .ended (s.raise .unknownOpcode s.pc)

/-- The three tests in the order of R141 (decision D14): halt, then the counter, then the fetch. -/
def prologue (s : State) : Prologue :=
  if s.pc.toNat = s.plen then .ended s.halt
  else if s.countDispatch.steps.toNat > Config.stepLimit then
    .ended (s.countDispatch.raise .stepLimitExceeded s.pc)
  else fetchDecode s.countDispatch

/-- The program `p` with word `w` at index `i`, filled with zero words up to it where it is shorter. -/
def putProgWord (p : List ProgWord) (i : Nat) (w : ProgWord) : List ProgWord :=
  p.take i ++ List.replicate (i - p.length) 0 ++ [w] ++ p.drop (i + 1)

/-- The state in which the very next step fetches `w`. In a run: `w` at `pc` in the program store, and the dispatch
counter below its limit. Outside a run nothing is fetched, so the host's own way is taken: Start with the program of
that one word (R243; log entry 3). -/
def State.placeWord (s : State) (w : ProgWord) : State :=
  match s.status with
  | .running =>
    { s with
      prog := putProgWord s.prog s.pc.toNat w
      steps := if s.steps.toNat < Config.stepLimit then s.steps else 0 }
  | _ => s.start [w] s.memPresent

end Sys2Proof.Machine
end

