-- ==== Sys2Proof/Machine/Step.lean ====
section
/-!
DEFINITION. One step of the machine (41_execution_loop.md R141).
-/

namespace Sys2Proof.Machine

/-- While Running: halt, fault, or run the instruction at `pc`. In any other status "Step does nothing" (R141). -/
def step (s : State) : Host.Outcome State Fault Refusal :=
  match s.status with
  | .running =>
    match prologue s with
    | .ended t => .next t
    | .dispatch i t => exec i t
    | .outside => .fault .fetchOutsideProgram
  | .idle => .next s
  | .halted => .next s
  | .faulted => .next s

/-- `s` with the instruction whose bits are `w` placed where the next step fetches it (log entries 3 and 11). -/
def State.withFetchWord (s : State) (nbits w : Nat) : State := s.placeWord (tableWord nbits w)

end Sys2Proof.Machine
end

