-- ==== Sys2Proof/Machine/HostPort.lean ====
section
/-!
DEFINITION. What the host may do, and when (00_scope.md R13, R18): Start, the three memory calls, and reading the
outcome. The host has no move during a run (decision D24, log entry 10). These actions stand beside `step`.
-/

namespace Sys2Proof.Machine

/-- The host's actions (R18). -/
inductive HostAction where
  /-- `Execute(program, memoryOrNone)`: sample the inputs and start a run (R140). -/
  | start (prog : List ProgWord) (memPresent : Bool)
  /-- `Memory.Initialize()` (20_memory.md R54). -/
  | clearMemory
  /-- `Memory.ReadWord` (R55). -/
  | readWord (addr : Word)
  /-- `Memory.WriteWord` (R56). -/
  | writeWord (addr value : Word)
  /-- Read `status`, `result`, `result_valid`, `err_kind`, `err_pc` (R147). -/
  | readOutcome
  deriving DecidableEq, Repr

/-- The outcome of a run as the host sees it (R147). -/
inductive RunOutcome where
  /-- No run has been started since power-up (10_state.md R31). -/
  | notStarted
  /-- Running: there is no outcome yet (never answered by `hostAct`, which refuses every action during a run). -/
  | inProgress
  /-- Halted: `result` and `result_valid`. -/
  | ok (result : BitVec 64) (valid : Bool)
  /-- Faulted: `err_kind` and `err_pc`. -/
  | error (kind : Option ErrorKind) (pc : ProgIndex)
  deriving DecidableEq, Repr

/-- What the host gets back. -/
inductive HostReply where
  | done
  | word (w : Word)
  /-- The memory's error, on `h_err`; the CPU's registers are not affected (60_exceptions.md R222). -/
  | memError (e : MemError)
  | outcome (o : RunOutcome)
  deriving DecidableEq, Repr

/-- The outcome registers (R147, R212). -/
def State.outcome (s : State) : RunOutcome :=
  match s.status with
  | .idle => .notStarted
  | .running => .inProgress
  | .halted => .ok s.result s.resultValid
  | .faulted => .error s.errKind s.errPc

/-- The action's effect when no run is in progress. -/
def hostEffect (act : HostAction) (s : State) : Host.Outcome (State × HostReply) Fault Refusal :=
  match act with
  | .start prog memPresent =>
    if prog.length > Config.plenMax then .refused .programTooLong
    else .next (s.start prog memPresent, .done)
  | .clearMemory => .next (s.setMem s.mem.clear, .done)
  | .readWord addr =>
    match s.mem.readWord addr with
    | .ok w => .next (s, .word w)
    | .error e => .next (s, .memError e)
  | .writeWord addr value =>
    match s.mem.writeWord addr value with
    | .ok m => .next (s.setMem m, .done)
    | .error e => .next (s, .memError e)
  | .readOutcome => .next (s, .outcome s.outcome)

/-- One host action: none while a run is in progress (R18). -/
def hostAct (act : HostAction) (s : State) : Host.Outcome (State × HostReply) Fault Refusal :=
  if s.status = .running then .refused .hostWhileRunning else hostEffect act s

end Sys2Proof.Machine
end

