-- ==== Sys2Proof/Safety.lean ====
section
/-!
DEFINITION. What counts as a good state and an ended run, in the terms the statements use, and the spec's tables of what
each instruction writes and which faults it can raise.
-/

namespace Sys2Proof

open Sys2Proof.Machine

/-- A run has ended exactly when `status` is Halted or Faulted (00_scope.md R19). -/
abbrev Ended (s : State) : Prop := s.status = .halted ∨ s.status = .faulted

/-- `s` after the fault `k` at its `pc`: status, `err_kind` and `err_pc`, and nothing else (41_execution_loop.md R150,
60_exceptions.md R212). -/
abbrev faultedAs (k : ErrorKind) (s : State) : State :=
  { s with status := .faulted, errKind := some k, errPc := s.pc }

/-- The index field is outside 0..31 (10_state.md R21). -/
abbrev BadReg (i : Int) : Prop := i < 0 ∨ 31 < i

/-- The register-index field an instruction writes, where it writes one (10_state.md R22). -/
def destField : Instr → Option Int
  | .loadConst dst _ => some dst
  | .add dst _ => some dst
  | .subtract dst _ => some dst
  | .multiply dst _ => some dst
  | .divide dst _ => some dst
  | .compare _ _ => none
  | .jump _ => none
  | .jumpIfZero _ => none
  | .jumpIfNotZero _ => none
  | .load dst _ => some dst
  | .store _ _ => none

/-- The register-index fields an instruction uses (60_exceptions.md R201). -/
def usedRegFields : Instr → List Int
  | .loadConst dst _ => [dst]
  | .add dst src => [dst, src]
  | .subtract dst src => [dst, src]
  | .multiply dst src => [dst, src]
  | .divide dst src => [dst, src]
  | .compare dst src => [dst, src]
  | .jump _ => []
  | .jumpIfZero _ => []
  | .jumpIfNotZero _ => []
  | .load dst areg => [dst, areg]
  | .store src areg => [src, areg]

/-- The five flag-producing instructions (10_state.md R27). -/
def producesFlags : Instr → Bool
  | .add _ _ => true
  | .subtract _ _ => true
  | .multiply _ _ => true
  | .divide _ _ => true
  | .compare _ _ => true
  | .loadConst _ _ => false
  | .jump _ => false
  | .jumpIfZero _ => false
  | .jumpIfNotZero _ => false
  | .load _ _ => false
  | .store _ _ => false

/-- The target of a jump instruction. -/
def jumpTarget : Instr → Option Nat
  | .jump target => some target
  | .jumpIfZero target => some target
  | .jumpIfNotZero target => some target
  | .loadConst _ _ => none
  | .add _ _ => none
  | .subtract _ _ => none
  | .multiply _ _ => none
  | .divide _ _ => none
  | .compare _ _ => none
  | .load _ _ => none
  | .store _ _ => none

/-- Whether the instruction jumps when the Zero flag is `z` (44_control.md R180 to R182). -/
def jumpTaken (z : Bool) : Instr → Bool
  | .jump _ => true
  | .jumpIfZero _ => z
  | .jumpIfNotZero _ => !z
  | .loadConst _ _ => false
  | .add _ _ => false
  | .subtract _ _ => false
  | .multiply _ _ => false
  | .divide _ _ => false
  | .compare _ _ => false
  | .load _ _ => false
  | .store _ _ => false

/-- Which fault each instruction can raise, complete (60_exceptions.md R223). -/
def faultKinds : Instr → List ErrorKind
  | .loadConst _ _ => [.registerOutOfRange]
  | .add _ _ => [.registerOutOfRange]
  | .subtract _ _ => [.registerOutOfRange]
  | .multiply _ _ => [.registerOutOfRange]
  | .divide _ _ => [.registerOutOfRange, .divisionByZero]
  | .compare _ _ => [.registerOutOfRange]
  | .jump _ => [.jumpTargetOutOfRange]
  | .jumpIfZero _ => [.jumpTargetOutOfRange]
  | .jumpIfNotZero _ => [.jumpTargetOutOfRange]
  | .load _ _ => [.registerOutOfRange, .unalignedMemoryAccess, .memoryOutOfBounds, .memoryNotAttached]
  | .store _ _ => [.registerOutOfRange, .unalignedMemoryAccess, .memoryOutOfBounds, .memoryNotAttached]

/-- The bits of a word that the instruction's used fields and its opcode occupy (30_encoding.md R81, R83). -/
def usedBits : Instr → ProgWord
  | .loadConst _ _ => 0xFFFFFFFFFFFFFFFF000000000000FFFF
  | .add _ _ => 0x00000000000000000000000000FFFFFF
  | .subtract _ _ => 0x00000000000000000000000000FFFFFF
  | .multiply _ _ => 0x00000000000000000000000000FFFFFF
  | .divide _ _ => 0x00000000000000000000000000FFFFFF
  | .compare _ _ => 0x00000000000000000000000000FFFFFF
  | .jump _ => 0x0000000000000000FFFFFFFF000000FF
  | .jumpIfZero _ => 0x0000000000000000FFFFFFFF000000FF
  | .jumpIfNotZero _ => 0x0000000000000000FFFFFFFF000000FF
  | .load _ _ => 0x000000000000000000000000FF00FFFF
  | .store _ _ => 0x000000000000000000000000FFFF00FF

/-- The invariant of the machine: it holds at power-up, after every Start, and after every step. -/
structure Inv (s : State) : Prop where
  /-- The memory list is canonical. -/
  memory_wf : s.mem.wf = true
  /-- The program fits its index: `plen <= PLEN_MAX` (10_state.md R33). -/
  program_fits : s.plen ≤ 4294967295
  /-- The counter never passes `STEP_LIMIT + 1` (R28). -/
  steps_bounded : s.steps.toNat ≤ 1000001
  /-- Before the first tracked write every register is 0 (R23, R30). -/
  untracked : s.lastValid = false → s.last = 0 ∧ ∀ r : RegIdx, s.readReg r = 0
  /-- While Running `pc <= plen` (R25), no error is recorded and no result shown (R32, R36). -/
  running : s.status = .running →
    0 < s.plen ∧ s.pc.toNat ≤ s.plen ∧ s.steps.toNat ≤ 1000000 ∧ s.errKind = none ∧ s.errPc = 0 ∧
      s.result = 0 ∧ s.resultValid = false
  /-- Halted only at `plen`, with the last-written register as result (R19, R147). -/
  halted : s.status = .halted →
    s.pc.toNat = s.plen ∧ s.errKind = none ∧ s.errPc = 0 ∧ s.resultValid = s.lastValid ∧
      s.result = (if s.lastValid then (s.readReg s.last).signExtend 64 else 0)
  /-- Faulted only by a raise, which records its kind and `pc`; no result (R19, R212). -/
  faulted : s.status = .faulted →
    s.errKind ≠ none ∧ s.errPc = s.pc ∧ s.result = 0 ∧ s.resultValid = false

end Sys2Proof
end

