-- ==== Sys2Proof/Certificates/Slice0/Obligations.lean ====
section
/-!
DEFINITION. The statements for the provers. Each docstring names the rule of spec/ it formalises. Registers are written
as values of `RegIdx` where an operand is valid, and as plain integers where it may be out of range.
-/

open Sys2Proof Sys2Proof.Machine

/-! ## The ALU -/

/-- 40_alu.md R111 (the full-adder equations are the spec's own G1): there is a carry chain that starts at the carry-in,
gives each sum bit and each next carry by the full adder, and ends in the carry out. -/
def Obligations.RippleAddFollowsCarryChain : Prop :=
  ∀ (a b : Word) (cin : Bool), ∃ c : Nat → Bool, c 0 = cin ∧
    (∀ i < 32, (rippleAdd a b cin).1.getLsbD i = (a.getLsbD i ^^ b.getLsbD i ^^ c i) ∧
      c (i + 1) = ((a.getLsbD i && b.getLsbD i) || (a.getLsbD i && c i) || (b.getLsbD i && c i))) ∧
    (rippleAdd a b cin).2 = c 32

/-- 40_alu.md R112: the sum is the exact sum modulo 2^32, the carry out its quotient (the second line the spec marks as
derived). -/
def Obligations.RippleAddClosedForm : Prop :=
  ∀ (a b : Word) (cin : Bool),
    (rippleAdd a b cin).1.toNat = (a.toNat + b.toNat + cin.toNat) % 2 ^ 32 ∧
    (rippleAdd a b cin).2 = decide (2 ^ 32 ≤ a.toNat + b.toNat + cin.toNat)

/-- 40_alu.md R113: result and four flags of ALU Add; V by its rule, and exactly when the signed sum does not fit. -/
def Obligations.AluAddResultAndFlags : Prop :=
  ∀ a b : Word,
    (aluAdd a b).r.toNat = (a.toNat + b.toNat) % 2 ^ 32 ∧
    (aluAdd a b).f.z = decide ((aluAdd a b).r = 0) ∧
    (aluAdd a b).f.n = (aluAdd a b).r.getLsbD 31 ∧
    ((aluAdd a b).f.c = true ↔ 2 ^ 32 ≤ a.toNat + b.toNat) ∧
    ((aluAdd a b).f.v = true ↔ a.getLsbD 31 = b.getLsbD 31 ∧ (aluAdd a b).r.getLsbD 31 ≠ a.getLsbD 31) ∧
    ((aluAdd a b).f.v = true ↔ a.toInt + b.toInt < -2 ^ 31 ∨ 2 ^ 31 ≤ a.toInt + b.toInt)

/-- 40_alu.md R114: result and four flags of ALU Subtract; C is the complement of borrow. -/
def Obligations.AluSubtractResultAndFlags : Prop :=
  ∀ a b : Word,
    (((aluSubtract a b).r.toNat : Int) = ((a.toNat : Int) - b.toNat) % 2 ^ 32) ∧
    (aluSubtract a b).r = (rippleAdd a (~~~b) true).1 ∧
    (aluSubtract a b).f.z = decide ((aluSubtract a b).r = 0) ∧
    (aluSubtract a b).f.n = (aluSubtract a b).r.getLsbD 31 ∧
    ((aluSubtract a b).f.c = true ↔ b.toNat ≤ a.toNat) ∧
    ((aluSubtract a b).f.v = true ↔
      a.getLsbD 31 ≠ b.getLsbD 31 ∧ (aluSubtract a b).r.getLsbD 31 ≠ a.getLsbD 31)

/-- 40_alu.md R115: the low 32 bits of the exact product, Z and N from them, C = V = 0. -/
def Obligations.AluMultiplyResultAndFlags : Prop :=
  ∀ a b : Word,
    (aluMultiply a b).r.toNat = (a.toNat * b.toNat) % 2 ^ 32 ∧
    (aluMultiply a b).f =
      { z := decide ((aluMultiply a b).r = 0), n := (aluMultiply a b).r.getLsbD 31, c := false, v := false }

/-- 40_alu.md R116: the unsigned quotient for a divisor that is not 0, Z and N from it, C = V = 0. -/
def Obligations.AluDivideResultAndFlags : Prop :=
  ∀ (a b : Word) (h : b ≠ 0),
    (aluDivide a b h).r.toNat = a.toNat / b.toNat ∧
    (aluDivide a b h).f =
      { z := decide ((aluDivide a b h).r = 0), n := (aluDivide a b h).r.getLsbD 31, c := false, v := false }

/-- 40_alu.md R117: Z and N are common to all four operations. -/
def Obligations.AluZeroNegativeCommon : Prop :=
  ∀ (op : AluOp) (a b : Word) (h : ¬ (op = .divide ∧ b = 0)),
    (alu op a b h).f.z = decide ((alu op a b h).r = 0) ∧ (alu op a b h).f.n = (alu op a b h).r.getLsbD 31

/-- 43_arithmetic.md R169 (its reading of the flags after Compare, which the spec marks as derived): Z is equality, C the
unsigned order, N xor V the signed order. -/
def Obligations.SubtractFlagsOrderOperands : Prop :=
  ∀ a b : Word,
    ((aluSubtract a b).f.z = true ↔ a = b) ∧
    ((aluSubtract a b).f.c = true ↔ b.toNat ≤ a.toNat) ∧
    (((aluSubtract a b).f.n ^^ (aluSubtract a b).f.v) = true ↔ a.toInt < b.toInt)

/-! ## What each instruction does: where it completes, where it faults, and its encoding (30_encoding.md R81, R83) -/

/-- 42_loadconst.md R160: the register, the tracker and pc are written and no flag is, for every immediate; a bad index
faults. -/
def Obligations.LoadConstCompletesOrFaults : Prop :=
  (∀ (s : State) (d : RegIdx) (imm : Int),
    exec (.loadConst (d : Nat) imm) s = .next
      { s with regs := s.regs.set d (BitVec.ofNat 32 (imm % 2 ^ 32).toNat), last := d, lastValid := true, pc := s.pc + 1 }) ∧
  (∀ (s : State) (dst imm : Int), BadReg dst →
    exec (.loadConst dst imm) s = .next (faultedAs .registerOutOfRange s)) ∧
  (∀ w : ProgWord, w.extractLsb' 0 8 = 0 →
    decode w = .ok (.loadConst (w.extractLsb' 8 8).toInt (w.extractLsb' 64 64).toInt))

/-- 43_arithmetic.md R165: Add, its four flags, and its one fault. -/
def Obligations.AddCompletesOrFaults : Prop :=
  (∀ (s : State) (d r : RegIdx) (a b res : Word), a = s.readReg d → b = s.readReg r →
    res = BitVec.ofNat 32 (a.toNat + b.toNat) →
    exec (.add (d : Nat) (r : Nat)) s = .next
      { s with
        regs := s.regs.set d res, last := d, lastValid := true, pc := s.pc + 1
        flags :=
          { z := decide (res = 0)
            n := res.getLsbD 31
            c := decide (2 ^ 32 ≤ a.toNat + b.toNat)
            v := decide (a.getLsbD 31 = b.getLsbD 31 ∧ res.getLsbD 31 ≠ a.getLsbD 31) } }) ∧
  (∀ (s : State) (dst src : Int), BadReg dst ∨ BadReg src →
    exec (.add dst src) s = .next (faultedAs .registerOutOfRange s)) ∧
  (∀ w : ProgWord, w.extractLsb' 0 8 = 1 →
    decode w = .ok (.add (w.extractLsb' 8 8).toInt (w.extractLsb' 16 8).toInt))

/-- 43_arithmetic.md R166: Subtract, its four flags, and its one fault. -/
def Obligations.SubtractCompletesOrFaults : Prop :=
  (∀ (s : State) (d r : RegIdx) (a b res : Word), a = s.readReg d → b = s.readReg r →
    res = BitVec.ofNat 32 (2 ^ 32 + a.toNat - b.toNat) →
    exec (.subtract (d : Nat) (r : Nat)) s = .next
      { s with
        regs := s.regs.set d res, last := d, lastValid := true, pc := s.pc + 1
        flags :=
          { z := decide (res = 0)
            n := res.getLsbD 31
            c := decide (b.toNat ≤ a.toNat)
            v := decide (a.getLsbD 31 ≠ b.getLsbD 31 ∧ res.getLsbD 31 ≠ a.getLsbD 31) } }) ∧
  (∀ (s : State) (dst src : Int), BadReg dst ∨ BadReg src →
    exec (.subtract dst src) s = .next (faultedAs .registerOutOfRange s)) ∧
  (∀ w : ProgWord, w.extractLsb' 0 8 = 2 →
    decode w = .ok (.subtract (w.extractLsb' 8 8).toInt (w.extractLsb' 16 8).toInt))

/-- 43_arithmetic.md R167: Multiply, its four flags, and its one fault. -/
def Obligations.MultiplyCompletesOrFaults : Prop :=
  (∀ (s : State) (d r : RegIdx) (res : Word),
    res = BitVec.ofNat 32 ((s.readReg d).toNat * (s.readReg r).toNat) →
    exec (.multiply (d : Nat) (r : Nat)) s = .next
      { s with
        regs := s.regs.set d res, last := d, lastValid := true, pc := s.pc + 1
        flags := { z := decide (res = 0), n := res.getLsbD 31, c := false, v := false } }) ∧
  (∀ (s : State) (dst src : Int), BadReg dst ∨ BadReg src →
    exec (.multiply dst src) s = .next (faultedAs .registerOutOfRange s)) ∧
  (∀ w : ProgWord, w.extractLsb' 0 8 = 3 →
    decode w = .ok (.multiply (w.extractLsb' 8 8).toInt (w.extractLsb' 16 8).toInt))

/-- 43_arithmetic.md R168: Divide completes when the divisor register is not 0; register check first, then the zero
divisor. -/
def Obligations.DivideCompletesOrFaults : Prop :=
  (∀ (s : State) (d r : RegIdx) (res : Word), s.readReg r ≠ 0 →
    res = BitVec.ofNat 32 ((s.readReg d).toNat / (s.readReg r).toNat) →
    exec (.divide (d : Nat) (r : Nat)) s = .next
      { s with
        regs := s.regs.set d res, last := d, lastValid := true, pc := s.pc + 1
        flags := { z := decide (res = 0), n := res.getLsbD 31, c := false, v := false } }) ∧
  (∀ (s : State) (d r : RegIdx), s.readReg r = 0 →
    exec (.divide (d : Nat) (r : Nat)) s = .next (faultedAs .divisionByZero s)) ∧
  (∀ (s : State) (dst src : Int), BadReg dst ∨ BadReg src →
    exec (.divide dst src) s = .next (faultedAs .registerOutOfRange s)) ∧
  (∀ w : ProgWord, w.extractLsb' 0 8 = 4 →
    decode w = .ok (.divide (w.extractLsb' 8 8).toInt (w.extractLsb' 16 8).toInt))

/-- 43_arithmetic.md R169: Compare writes the flags of the difference and nothing else but pc; its one fault. -/
def Obligations.CompareCompletesOrFaults : Prop :=
  (∀ (s : State) (d r : RegIdx) (a b res : Word), a = s.readReg d → b = s.readReg r →
    res = BitVec.ofNat 32 (2 ^ 32 + a.toNat - b.toNat) →
    exec (.compare (d : Nat) (r : Nat)) s = .next
      { s with
        pc := s.pc + 1
        flags :=
          { z := decide (res = 0)
            n := res.getLsbD 31
            c := decide (b.toNat ≤ a.toNat)
            v := decide (a.getLsbD 31 ≠ b.getLsbD 31 ∧ res.getLsbD 31 ≠ a.getLsbD 31) } }) ∧
  (∀ (s : State) (dst src : Int), BadReg dst ∨ BadReg src →
    exec (.compare dst src) s = .next (faultedAs .registerOutOfRange s)) ∧
  (∀ w : ProgWord, w.extractLsb' 0 8 = 5 →
    decode w = .ok (.compare (w.extractLsb' 8 8).toInt (w.extractLsb' 16 8).toInt))

/-- 44_control.md R180: Jump goes to every target up to and including plen, and faults beyond. -/
def Obligations.JumpCompletesOrFaults : Prop :=
  (∀ (s : State) (t : Nat), t ≤ s.plen → exec (.jump t) s = .next { s with pc := BitVec.ofNat 32 t }) ∧
  (∀ (s : State) (t : Nat), s.plen < t → exec (.jump t) s = .next (faultedAs .jumpTargetOutOfRange s)) ∧
  (∀ w : ProgWord, w.extractLsb' 0 8 = 6 →
    decode w = .ok (.jump (w.extractLsb' 32 32).toNat))

/-- 44_control.md R181: JumpIfZero, taken when Z = 1; an untaken jump goes on whatever its target is. -/
def Obligations.JumpIfZeroCompletesOrFaults : Prop :=
  (∀ (s : State) (t : Nat), s.flags.z = true → t ≤ s.plen →
    exec (.jumpIfZero t) s = .next { s with pc := BitVec.ofNat 32 t }) ∧
  (∀ (s : State) (t : Nat), s.flags.z = false → exec (.jumpIfZero t) s = .next { s with pc := s.pc + 1 }) ∧
  (∀ (s : State) (t : Nat), s.flags.z = true → s.plen < t →
    exec (.jumpIfZero t) s = .next (faultedAs .jumpTargetOutOfRange s)) ∧
  (∀ w : ProgWord, w.extractLsb' 0 8 = 7 →
    decode w = .ok (.jumpIfZero (w.extractLsb' 32 32).toNat))

/-- 44_control.md R182: JumpIfNotZero, taken when Z = 0. -/
def Obligations.JumpIfNotZeroCompletesOrFaults : Prop :=
  (∀ (s : State) (t : Nat), s.flags.z = false → t ≤ s.plen →
    exec (.jumpIfNotZero t) s = .next { s with pc := BitVec.ofNat 32 t }) ∧
  (∀ (s : State) (t : Nat), s.flags.z = true → exec (.jumpIfNotZero t) s = .next { s with pc := s.pc + 1 }) ∧
  (∀ (s : State) (t : Nat), s.flags.z = false → s.plen < t →
    exec (.jumpIfNotZero t) s = .next (faultedAs .jumpTargetOutOfRange s)) ∧
  (∀ w : ProgWord, w.extractLsb' 0 8 = 8 →
    decode w = .ok (.jumpIfNotZero (w.extractLsb' 32 32).toNat))

/-- 45_loadstore.md R190: Load of an aligned address inside the attached memory writes the little-endian word there, the
tracker and pc; and its four faults in the order tested (decision D16). -/
def Obligations.LoadCompletesOrFaults : Prop :=
  (∀ (s : State) (d r : RegIdx) (ea : Nat), ea = (s.readReg r).toNat → s.memPresent = true → ea % 4 = 0 → ea ≤ 65532 →
    ∃ v : Word,
      v.toNat = (s.mem.readByte ea).toNat + 2 ^ 8 * (s.mem.readByte (ea + 1)).toNat +
        2 ^ 16 * (s.mem.readByte (ea + 2)).toNat + 2 ^ 24 * (s.mem.readByte (ea + 3)).toNat ∧
      exec (.load (d : Nat) (r : Nat)) s = .next
        { s with regs := s.regs.set d v, last := d, lastValid := true, pc := s.pc + 1 }) ∧
  (∀ (s : State) (d r : RegIdx), s.memPresent = true → (s.readReg r).toNat % 4 = 0 → 65532 < (s.readReg r).toNat →
    exec (.load (d : Nat) (r : Nat)) s = .next (faultedAs .memoryOutOfBounds s)) ∧
  (∀ (s : State) (d r : RegIdx), s.memPresent = true → (s.readReg r).toNat % 4 ≠ 0 →
    exec (.load (d : Nat) (r : Nat)) s = .next (faultedAs .unalignedMemoryAccess s)) ∧
  (∀ (s : State) (d r : RegIdx), s.memPresent = false →
    exec (.load (d : Nat) (r : Nat)) s = .next (faultedAs .memoryNotAttached s)) ∧
  (∀ (s : State) (dst areg : Int), BadReg dst ∨ BadReg areg →
    exec (.load dst areg) s = .next (faultedAs .registerOutOfRange s)) ∧
  (∀ w : ProgWord, w.extractLsb' 0 8 = 9 →
    decode w = .ok (.load (w.extractLsb' 8 8).toInt (w.extractLsb' 24 8).toInt))

/-- 45_loadstore.md R191: Store to an aligned address inside the attached memory replaces exactly the four bytes there,
little-endian, and moves pc; and its four faults in the order tested (decision D16). -/
def Obligations.StoreCompletesOrFaults : Prop :=
  (∀ (s : State) (r q : RegIdx) (ea : Nat), s.mem.wf = true → ea = (s.readReg q).toNat → s.memPresent = true →
    ea % 4 = 0 → ea ≤ 65532 →
    ∃ m : Memory,
      exec (.store (r : Nat) (q : Nat)) s = .next { s with mem := m, pc := s.pc + 1 } ∧
      (∀ i < 4, m.readByte (ea + i) = (s.readReg r).extractLsb' (8 * i) 8) ∧
      (∀ a : Nat, a < ea ∨ ea + 4 ≤ a → m.readByte a = s.mem.readByte a)) ∧
  (∀ (s : State) (r q : RegIdx), s.memPresent = true → (s.readReg q).toNat % 4 = 0 → 65532 < (s.readReg q).toNat →
    exec (.store (r : Nat) (q : Nat)) s = .next (faultedAs .memoryOutOfBounds s)) ∧
  (∀ (s : State) (r q : RegIdx), s.memPresent = true → (s.readReg q).toNat % 4 ≠ 0 →
    exec (.store (r : Nat) (q : Nat)) s = .next (faultedAs .unalignedMemoryAccess s)) ∧
  (∀ (s : State) (r q : RegIdx), s.memPresent = false →
    exec (.store (r : Nat) (q : Nat)) s = .next (faultedAs .memoryNotAttached s)) ∧
  (∀ (s : State) (src areg : Int), BadReg src ∨ BadReg areg →
    exec (.store src areg) s = .next (faultedAs .registerOutOfRange s)) ∧
  (∀ w : ProgWord, w.extractLsb' 0 8 = 10 →
    decode w = .ok (.store (w.extractLsb' 16 8).toInt (w.extractLsb' 24 8).toInt))

/-- Every instruction answers a next state from every state: none is refused, none stops the model (R223: every fault an
instruction raises is one of the error kinds, taken as a next state). -/
def Obligations.EveryInstructionAnswersNext : Prop :=
  ∀ (i : Instr) (s : State), ∃ t : State, exec i s = .next t

/-! ## Frames: what an instruction leaves unchanged -/

/-- 10_state.md R22: an instruction changes no register but the one its destination field names. -/
def Obligations.RegistersOutsideDestinationUnchanged : Prop :=
  ∀ (i : Instr) (s t : State), exec i s = .next t →
    ∀ r : RegIdx, destField i ≠ some ((r : Nat) : Int) → t.readReg r = s.readReg r

/-- 10_state.md R27: only the five flag-producing instructions write the flags, and not when they fault. -/
def Obligations.FlagsOnlyFromFlagProducers : Prop :=
  ∀ (i : Instr) (s t : State), s.status = .running → exec i s = .next t →
    (producesFlags i = false ∨ t.status = .faulted) → t.flags = s.flags

/-- 10_state.md R30: each of the six register-writing instructions sets the tracker to its destination when, and only
when, it completes; every other instruction, and every fault, leaves it; and Start resets it (decision D12). -/
def Obligations.TrackerFollowsRegisterWriters : Prop :=
  (∀ (i : Instr) (s t : State), s.status = .running → exec i s = .next t →
    (∀ dst : Int, destField i = some dst → t.status ≠ .faulted →
      ((t.last : Nat) : Int) = dst ∧ t.lastValid = true) ∧
    ((destField i = none ∨ t.status = .faulted) → t.last = s.last ∧ t.lastValid = s.lastValid)) ∧
  (∀ (s : State) (p : List ProgWord) (present : Bool),
    (s.start p present).last = 0 ∧ (s.start p present).lastValid = false)

/-- 20_memory.md R56, 45_loadstore.md R190 and R191: no byte of memory changes but the four that a Store addresses by its
address register, and none at all where the instruction faults or stores nothing. -/
def Obligations.MemoryOutsideStoreUnchanged : Prop :=
  ∀ (i : Instr) (s t : State), s.status = .running → exec i s = .next t →
    ((∀ src areg : Int, i ≠ .store src areg) ∨ t.status = .faulted → t.mem = s.mem) ∧
    (∀ (src : Int) (q : RegIdx), i = .store src (q : Nat) →
      ∀ a : Nat, a < (s.readReg q).toNat ∨ (s.readReg q).toNat + 4 ≤ a → t.mem.readByte a = s.mem.readByte a)

/-- 10_state.md R33, R35, R36, 60_exceptions.md R212: no instruction changes the program, the memory's presence, the
dispatch counter or the result; the status and error registers change only by a fault. -/
def Obligations.ControlRegistersChangeOnlyByFault : Prop :=
  ∀ (i : Instr) (s t : State), exec i s = .next t →
    t.prog = s.prog ∧ t.memPresent = s.memPresent ∧ t.steps = s.steps ∧ t.result = s.result ∧
    t.resultValid = s.resultValid ∧
    ((t.status = s.status ∧ t.errKind = s.errKind ∧ t.errPc = s.errPc) ∨
      ∃ k ∈ faultKinds i, t = faultedAs k s)

/-- 10_state.md R25: pc goes to the target of a taken jump, to `pc + 1` otherwise, and stays where the instruction
faults. -/
def Obligations.ProgramCounterRule : Prop :=
  ∀ (i : Instr) (s t : State), s.status = .running → exec i s = .next t →
    (t.status = .faulted → t.pc = s.pc) ∧
    (t.status ≠ .faulted → jumpTaken s.flags.z i = false → t.pc = s.pc + 1) ∧
    (t.status ≠ .faulted → jumpTaken s.flags.z i = true →
      ∃ g : Nat, jumpTarget i = some g ∧ g ≤ s.plen ∧ t.pc = BitVec.ofNat 32 g)

/-! ## Faults -/

/-- 60_exceptions.md R201: RegisterOutOfRange is raised exactly when a register field that the instruction uses is outside
0..31, and then before every other check; its code is 1. -/
def Obligations.RegisterOutOfRangeExactly : Prop :=
  errorCode .registerOutOfRange = 1 ∧ ∀ (i : Instr) (s : State),
    ((∃ f ∈ usedRegFields i, BadReg f) → exec i s = .next (faultedAs .registerOutOfRange s)) ∧
    (s.errKind = none → (∀ f ∈ usedRegFields i, ¬ BadReg f) →
      ∀ t : State, exec i s = .next t → t.errKind ≠ some .registerOutOfRange)

/-- 60_exceptions.md R223: an instruction raises no fault but those of its row in the table. -/
def Obligations.FaultTableComplete : Prop :=
  ∀ (i : Instr) (s t : State) (k : ErrorKind), s.errKind = none → exec i s = .next t → t.errKind = some k →
    k ∈ faultKinds i

/-- 41_execution_loop.md R150: a step that faults changes nothing but `steps`, `status`, `err_kind` and `err_pc`, and
records the pc of the instruction. -/
def Obligations.FaultsArePrecise : Prop :=
  ∀ s t : State, s.status = .running → step s = .next t → t.status = .faulted →
    ∃ k : ErrorKind, t = { s with steps := s.steps + 1, status := .faulted, errKind := some k, errPc := s.pc }

/-- 60_exceptions.md R200 (decision D10): the codes are 1 to 9 in the order of the source's list, and 0 is no error. -/
def Obligations.ErrorCodesOfTheList : Prop :=
  [ErrorKind.registerOutOfRange, .jumpTargetOutOfRange, .unalignedMemoryAccess, .memoryOutOfBounds, .memoryNotAttached,
    .divisionByZero, .stepLimitExceeded, .emptyProgram, .unknownOpcode].map (fun k => (errorCode k).toNat) =
      [1, 2, 3, 4, 5, 6, 7, 8, 9] ∧
  (∀ s : State, s.errKind = none → s.errKindPort = 0) ∧
  (∀ (s : State) (k : ErrorKind), s.errKind = some k → s.errKindPort = errorCode k)

/-! ## The memory controller -/

/-- 20_memory.md R53 and R58: alignment first, then the bound on the address itself (decision D13); every other address
is accepted, for both operations. -/
def Obligations.AddressCheckOrder : Prop :=
  ∀ (m : Memory) (addr v : Word),
    (addr.toNat % 4 ≠ 0 → m.readWord addr = .error .alignment ∧ m.writeWord addr v = .error .alignment) ∧
    (addr.toNat % 4 = 0 → 65532 < addr.toNat →
      m.readWord addr = .error .bounds ∧ m.writeWord addr v = .error .bounds) ∧
    (addr.toNat % 4 = 0 → addr.toNat ≤ 65532 →
      (∃ w, m.readWord addr = .ok w) ∧ (∃ m', m.writeWord addr v = .ok m'))

/-- 20_memory.md R51: a read assembles four bytes with the least significant at the lowest address, and a write stores
them so. -/
def Obligations.LittleEndianWords : Prop :=
  (∀ (m : Memory) (addr w : Word), m.readWord addr = .ok w →
    w.toNat = (m.readByte addr.toNat).toNat + 2 ^ 8 * (m.readByte (addr.toNat + 1)).toNat +
      2 ^ 16 * (m.readByte (addr.toNat + 2)).toNat + 2 ^ 24 * (m.readByte (addr.toNat + 3)).toNat) ∧
  (∀ (m m' : Memory) (addr w : Word), m.wf = true → m.writeWord addr w = .ok m' →
    m'.readByte addr.toNat = w.extractLsb' 0 8 ∧ m'.readByte (addr.toNat + 1) = w.extractLsb' 8 8 ∧
    m'.readByte (addr.toNat + 2) = w.extractLsb' 16 8 ∧ m'.readByte (addr.toNat + 3) = w.extractLsb' 24 8)

/-- 20_memory.md R56: a write that passes the check of R53 stores the four bytes of the word, least significant first, and
changes no other byte; one that does not answers its error alone, and there is no written memory. -/
def Obligations.WriteWordChangesFourBytes : Prop :=
  ∀ (m : Memory) (addr v : Word), m.wf = true →
    (addr.toNat % 4 = 0 → addr.toNat ≤ 65532 →
      ∃ m' : Memory, m.writeWord addr v = .ok m' ∧
        (∀ i < 4, m'.readByte (addr.toNat + i) = v.extractLsb' (8 * i) 8) ∧
        ∀ a : Nat, a < addr.toNat ∨ addr.toNat + 4 ≤ a → m'.readByte a = m.readByte a) ∧
    (addr.toNat % 4 ≠ 0 → m.writeWord addr v = .error .alignment) ∧
    (addr.toNat % 4 = 0 → 65532 < addr.toNat → m.writeWord addr v = .error .bounds)

/-- 20_memory.md R68: what is written is what is read, for every aligned address in bounds and every word; and another
word's address reads as before. -/
def Obligations.WriteThenReadReturnsWord : Prop :=
  ∀ (m : Memory) (addr v : Word), m.wf = true → addr.toNat % 4 = 0 → addr.toNat ≤ 65532 →
    ∃ m' : Memory, m.writeWord addr v = .ok m' ∧ m'.readWord addr = .ok v ∧
      ∀ addr' : Word, addr' ≠ addr → m'.readWord addr' = m.readWord addr'

/-- 20_memory.md R54: Initialize zero-fills the memory. -/
def Obligations.InitializeZeroFills : Prop :=
  ∀ m : Memory, (∀ a : Nat, m.clear.readByte a = 0) ∧ m.clear.wf = true ∧
    ∀ addr : Word, addr.toNat % 4 = 0 → addr.toNat ≤ 65532 → m.clear.readWord addr = .ok 0

/-! ## Start, step, halt, limit -/

/-- 41_execution_loop.md R140: Start resets the CPU, leaves the memory, and rejects an empty program. -/
def Obligations.StartResetsCpu : Prop :=
  ∀ (s : State) (p : List ProgWord) (present : Bool) (base : State),
    base =
      { regs := Vector.replicate 32 0, flags := { z := false, n := false, c := false, v := false }, pc := 0, steps := 0
        last := 0, lastValid := false, status := .running, errKind := none, errPc := 0, result := 0
        resultValid := false, prog := p, memPresent := present, mem := s.mem } →
    (p ≠ [] → s.start p present = base) ∧
    (p = [] → s.start p present = { base with status := .faulted, errKind := some .emptyProgram, errPc := 0 })

/-- 41_execution_loop.md R141 and R145: a running machine whose counter has not passed its limit runs the decoded
instruction, on the state whose `steps` counts it. -/
def Obligations.StepRunsDecodedInstruction : Prop :=
  ∀ (s : State) (w : ProgWord) (i : Instr), s.status = .running → s.pc.toNat ≠ s.plen →
    (s.steps + 1).toNat ≤ 1000000 → s.prog[s.pc.toNat]? = some w → decode w = .ok i → i.wellFormed = true →
    step s = exec i { s with steps := s.steps + 1 }

/-- 41_execution_loop.md R142: at `pc = plen` the run halts with the last-written register, sign-extended, as result, and
the counter is not incremented. -/
def Obligations.NormalHaltReportsLastWritten : Prop :=
  ∀ s : State, s.status = .running → s.pc.toNat = s.plen →
    ∃ res : BitVec 64,
      step s = .next { s with status := .halted, result := res, resultValid := s.lastValid } ∧
      (s.lastValid = true → res.toInt = (s.readReg s.last).toInt ∧ res.extractLsb' 0 32 = s.readReg s.last) ∧
      (s.lastValid = false → res = 0)

/-- 41_execution_loop.md R143, 60_exceptions.md R207 (boundary by decision D14): a dispatch that would count past
1,000,000 faults before the fetch. -/
def Obligations.StepLimitFaultsBeforeFetch : Prop :=
  ∀ s : State, s.status = .running → s.pc.toNat < s.plen → 1000000 < (s.steps + 1).toNat →
    step s = .next { s with steps := s.steps + 1, status := .faulted, errKind := some .stepLimitExceeded, errPc := s.pc }

/-- 60_exceptions.md R209 (decision D20): an opcode byte of 11 to 255 faults at dispatch, whatever the other fields are. -/
def Obligations.UnknownOpcodeFaultsAtDispatch : Prop :=
  ∀ (s : State) (w : ProgWord), s.status = .running → s.pc.toNat < s.plen → (s.steps + 1).toNat ≤ 1000000 →
    s.prog[s.pc.toNat]? = some w → 11 ≤ (w.extractLsb' 0 8).toNat →
    step s = .next { s with steps := s.steps + 1, status := .faulted, errKind := some .unknownOpcode, errPc := s.pc }

/-- 41_execution_loop.md R141, R151: in a status that is not Running, Step does nothing. -/
def Obligations.StepDoesNothingUnlessRunning : Prop :=
  ∀ s : State, s.status ≠ .running → step s = .next s

/-- 10_state.md R33, 20_memory.md R65: no step changes the program store or the memory's presence. -/
def Obligations.StepKeepsProgram : Prop :=
  ∀ s t : State, step s = .next t → t.prog = s.prog ∧ t.memPresent = s.memPresent

/-- 41_execution_loop.md R149: a step that changes a register has made it the last-written one. -/
def Obligations.ChangedRegisterIsTracked : Prop :=
  ∀ (s t : State) (r : RegIdx), step s = .next t → t.readReg r ≠ s.readReg r → t.last = r ∧ t.lastValid = true

/-- 41_execution_loop.md R148: each step of a run ends it or counts one dispatch. -/
def Obligations.StepEndsOrCounts : Prop :=
  ∀ s t : State, s.status = .running → s.steps.toNat ≤ 1000000 → step s = .next t →
    Ended t ∨ (t.status = .running ∧ t.steps.toNat = s.steps.toNat + 1)

/-! ## Noninterference -/

/-- 20_memory.md R67: with no memory attached a step neither reads nor writes the memory. -/
def Obligations.AbsentMemoryIsNeverTouched : Prop :=
  ∀ (s t : State) (m : Memory), s.memPresent = false → step s = .next t →
    t.mem = s.mem ∧ step { s with mem := m } = .next { t with mem := m }

/-- 10_state.md R27: N, C and V are read by no instruction: states that differ only in them step to states that differ
only in them. -/
def Obligations.OnlyZeroFlagIsRead : Prop :=
  ∀ (s t : State) (f : Flags), f.z = s.flags.z → step s = .next t →
    ∃ g : Flags, g.z = t.flags.z ∧ step { s with flags := f } = .next { t with flags := g }

/-! ## The invariant and the whole run -/

/-- The power-up state meets the invariant (its register values are the model's choice, log entries 1 and 2). -/
def Obligations.PowerUpMeetsInvariant : Prop := Inv State.reset

/-- After Start the invariant holds, for every program that fits (10_state.md R38). -/
def Obligations.StartMeetsInvariant : Prop :=
  ∀ (s : State) (p : List ProgWord) (present : Bool), s.mem.wf = true → p.length ≤ 2 ^ 32 - 1 → Inv (s.start p present)

/-- Every step keeps the invariant: `pc <= plen` while running (R25), the counter's bound (R28), the halt only at plen
with the last-written register (R19, R147), the fault registers (R32, R212), the memory's canonical form. -/
def Obligations.StepKeepsInvariant : Prop :=
  ∀ s t : State, Inv s → step s = .next t → Inv t

/-- Every host action keeps the invariant. -/
def Obligations.HostActionsKeepInvariant : Prop :=
  ∀ (act : HostAction) (s t : State) (reply : HostReply), Inv s → hostAct act s = .next (t, reply) → Inv t

/-- 41_execution_loop.md R142: from a state with the invariant a step never runs past the program: it answers a next
state. -/
def Obligations.StepAnswersUnderInvariant : Prop :=
  ∀ s : State, Inv s → ∃ t : State, step s = .next t

/-- 41_execution_loop.md R148, 00_scope.md R19: every run ends, after at most 1,000,001 counted steps and one halting
step. -/
def Obligations.EveryRunEnds : Prop :=
  ∀ s : State, Inv s → s.status = .running →
    ∃ n ≤ 1000002, ∃ t : State, Host.Core.run Sys2Proof.core n s = .next t ∧ Ended t ∧ Inv t

/-! ## Decoding and encoding -/

/-- 30_encoding.md R91: words written out from the layout decode to the instructions the table names. -/
def Obligations.EncodedExamplesDecode : Prop :=
  (decode 0x00000000000000030000000000000100#128).toOption = some (.loadConst 1 3) ∧
  (decode 0xFFFFFFFFFFFFFFFF0000000000000200#128).toOption = some (.loadConst 2 (-1)) ∧
  (decode 0x00000000000000000000000000020101#128).toOption = some (.add 1 2) ∧
  (decode 0x0000000000000000000000000000FF01#128).toOption = some (.add (-1) 0) ∧
  (decode 0x00000000000000000000000700000006#128).toOption = some (.jump 7) ∧
  (decode 0x0000000000000000000000000102000A#128).toOption = some (.store 2 1)

/-- Every well-formed instruction is decoded from its encoding, with every operand at every value the layout of
30_encoding.md R83 admits. -/
def Obligations.DecodeEncodeAgree : Prop :=
  ∀ i : Instr, i.wellFormed = true → (decode (encode i)).toOption = some i

/-- 30_encoding.md R88 (decision D7): what a word decodes to is well-formed, and encodes to the word with its unused
fields at zero: nothing but the used fields is read. -/
def Obligations.DecodeReadsOnlyUsedFields : Prop :=
  ∀ (w : ProgWord) (i : Instr), decode w = .ok i → i.wellFormed = true ∧ encode i = w &&& usedBits i

/-- 30_encoding.md R86 and R87: a word is an instruction exactly when its opcode byte is 0 to 10, and every other is
rejected by name. -/
def Obligations.DecodeAcceptsTheElevenOpcodes : Prop :=
  ∀ w : ProgWord,
    ((w.extractLsb' 0 8).toNat ≤ 10 → ∃ i : Instr, decode w = .ok i ∧ opcodeOf i = w.extractLsb' 0 8) ∧
    (10 < (w.extractLsb' 0 8).toNat → decode w = .error (.unknownOpcode (w.extractLsb' 0 8)))

/-! ## The host's side -/

/-- 00_scope.md R18 (decision D24): the host has no move during a run. -/
def Obligations.HostHasNoMoveDuringRun : Prop :=
  ∀ (act : HostAction) (s : State), s.status = .running → hostAct act s = .refused .hostWhileRunning

/-- 60_exceptions.md R222: the host's memory calls change nothing but the memory, and a bad address is told to the host
alone. -/
def Obligations.HostMemoryCallsLeaveCpu : Prop :=
  ∀ (s : State) (addr v : Word), s.status ≠ .running →
    (∃ reply, hostAct (.readWord addr) s = .next (s, reply)) ∧
    (∃ (m : Memory) (reply : HostReply), hostAct (.writeWord addr v) s = .next ({ s with mem := m }, reply)) ∧
    (addr.toNat % 4 ≠ 0 →
      hostAct (.readWord addr) s = .next (s, .memError .alignment) ∧
      hostAct (.writeWord addr v) s = .next (s, .memError .alignment)) ∧
    (addr.toNat % 4 = 0 → 65532 < addr.toNat →
      hostAct (.readWord addr) s = .next (s, .memError .bounds) ∧
      hostAct (.writeWord addr v) s = .next (s, .memError .bounds))

/-- 41_execution_loop.md R147: after a run the host reads the result of a halt or the error of a fault. -/
def Obligations.HostReadsOutcome : Prop :=
  ∀ s : State,
    (s.status = .halted → hostAct .readOutcome s = .next (s, .outcome (.ok s.result s.resultValid))) ∧
    (s.status = .faulted → hostAct .readOutcome s = .next (s, .outcome (.error s.errKind s.errPc)))
end

