-- ==== Sys2Proof/Laws/Memory.lean ====
section
/-!
SUPPORT. The laws of the memory list: what a byte reads as after a write, and that every operation keeps the canonical
form.
-/

namespace Sys2Proof.Machine

/-- A canonical list from a higher bound on is canonical from a lower one on. -/
theorem cellsWf_mono {ini : Bool} {lo lo' : Nat} {l : List Host.Cell} (h : lo' ≤ lo) (hl : cellsWf ini lo l = true) :
    cellsWf ini lo' l = true := by
  cases l with
  | nil => rfl
  | cons p rest =>
    obtain ⟨k, v⟩ := p
    simp only [cellsWf, Bool.and_eq_true, decide_eq_true_eq] at hl ⊢
    exact ⟨⟨⟨by omega, hl.1.1.2⟩, hl.1.2⟩, hl.2⟩

/-- Below its lower bound a canonical list holds nothing. -/
theorem getCell_below {ini : Bool} {lo a : Nat} {bg : Byte} {l : List Host.Cell} (hl : cellsWf ini lo l = true)
    (ha : a < lo) : getCell bg a l = bg := by
  induction l generalizing lo with
  | nil => rfl
  | cons p rest ih =>
    obtain ⟨k, v⟩ := p
    simp only [cellsWf, Bool.and_eq_true, decide_eq_true_eq] at hl
    have hne : k ≠ a := by omega
    simp only [getCell, hne, if_false]
    exact ih hl.2 (by omega)

/-- What is put is what is read. -/
theorem getCell_putCell_same {ini : Bool} {lo a : Nat} {b bg : Byte} {l : List Host.Cell}
    (hl : cellsWf ini lo l = true) : getCell bg a (putCell bg a b l) = b := by
  induction l generalizing lo with
  | nil =>
    by_cases hb : b = bg <;> simp [putCell, getCell, hb]
  | cons p rest ih =>
    obtain ⟨k, v⟩ := p
    have hl' := hl
    simp only [cellsWf, Bool.and_eq_true, decide_eq_true_eq] at hl'
    by_cases h1 : a < k
    · by_cases hb : b = bg
      · have hne : k ≠ a := by omega
        simp only [putCell, h1, hb, if_true, getCell, hne, if_false]
        exact getCell_below hl'.2 (by omega)
      · simp [putCell, h1, hb, getCell]
    · by_cases h2 : a = k
      · subst h2
        by_cases hb : b = bg
        · simp only [putCell, h1, hb, if_true, if_false]
          exact getCell_below hl'.2 (by omega)
        · simp [putCell, hb, getCell]
      · have hne : k ≠ a := fun e => h2 e.symm
        simp only [putCell, h1, h2, if_false, getCell, hne]
        exact ih hl'.2

/-- Every other address reads as before. -/
theorem getCell_putCell_ne {a a' : Nat} {b bg bg' : Byte} (l : List Host.Cell) (h : a' ≠ a) :
    getCell bg' a' (putCell bg a b l) = getCell bg' a' l := by
  induction l with
  | nil =>
    by_cases hb : b = bg <;> simp [putCell, getCell, hb, h.symm]
  | cons p rest ih =>
    obtain ⟨k, v⟩ := p
    by_cases h1 : a < k
    · by_cases hb : b = bg <;> simp [putCell, h1, hb, getCell, h.symm]
    · by_cases h2 : a = k
      · subst h2
        by_cases hb : b = bg <;> simp [putCell, hb, getCell, h.symm]
      · simp only [putCell, h1, h2, if_false, getCell, ih]

/-- A put inside the memory keeps the canonical form. -/
theorem cellsWf_putCell {ini : Bool} {lo a : Nat} {b : Byte} {l : List Host.Cell} (hl : cellsWf ini lo l = true)
    (hlo : lo ≤ a) (ha : a < Config.memSize) : cellsWf ini lo (putCell (backgroundByte ini a) a b l) = true := by
  induction l generalizing lo with
  | nil =>
    by_cases hb : b = backgroundByte ini a
    · simp [putCell, hb, cellsWf]
    · simp only [putCell, hb, if_false, cellsWf, Bool.and_eq_true, decide_eq_true_eq]
      exact ⟨⟨⟨hlo, ha⟩, hb⟩, trivial⟩
  | cons p rest ih =>
    obtain ⟨k, v⟩ := p
    have hl' := hl
    simp only [cellsWf, Bool.and_eq_true, decide_eq_true_eq] at hl'
    by_cases h1 : a < k
    · by_cases hb : b = backgroundByte ini a
      · simpa only [putCell, h1, hb, if_true] using hl
      · simp only [putCell, h1, hb, if_true, if_false, cellsWf, Bool.and_eq_true, decide_eq_true_eq]
        exact ⟨⟨⟨hlo, ha⟩, hb⟩, ⟨⟨by omega, hl'.1.1.2⟩, hl'.1.2⟩, hl'.2⟩
    · by_cases h2 : a = k
      · subst h2
        by_cases hb : b = backgroundByte ini a
        · simp only [putCell, h1, hb, if_true, if_false]
          exact cellsWf_mono (by omega) hl'.2
        · simp only [putCell, h1, hb, if_true, if_false, cellsWf, Bool.and_eq_true, decide_eq_true_eq]
          exact ⟨⟨⟨hlo, ha⟩, hb⟩, hl'.2⟩
      · simp only [putCell, h1, h2, if_false, cellsWf, Bool.and_eq_true, decide_eq_true_eq]
        exact ⟨⟨⟨hl'.1.1.1, hl'.1.1.2⟩, hl'.1.2⟩, ih hl'.2 (by omega)⟩

/-! ### The byte operations -/

@[simp] theorem Memory.writeByte_initialised (m : Memory) (a : Nat) (b : Byte) :
    (m.writeByte a b).initialised = m.initialised := rfl

theorem Memory.readByte_writeByte_same {m : Memory} (hm : m.wf = true) (a : Nat) (b : Byte) :
    (m.writeByte a b).readByte a = b :=
  getCell_putCell_same hm

theorem Memory.readByte_writeByte_ne (m : Memory) {a a' : Nat} (b : Byte) (h : a' ≠ a) :
    (m.writeByte a b).readByte a' = m.readByte a' :=
  getCell_putCell_ne m.cells h

theorem Memory.writeByte_wf {m : Memory} (hm : m.wf = true) {a : Nat} (ha : a < 65536) (b : Byte) :
    (m.writeByte a b).wf = true :=
  cellsWf_putCell hm (Nat.zero_le a) ha

/-! ### The word operations -/

theorem Memory.clear_wf (m : Memory) : m.clear.wf = true := rfl

@[simp] theorem Memory.clear_readByte (m : Memory) (a : Nat) : m.clear.readByte a = 0 := rfl

@[simp] theorem Memory.putWord_initialised (m : Memory) (a : Nat) (v : Word) :
    (m.putWord a v).initialised = m.initialised := rfl

theorem Memory.putWord_wf {m : Memory} (hm : m.wf = true) {a : Nat} (ha : a + 3 < 65536) (v : Word) :
    (m.putWord a v).wf = true :=
  writeByte_wf (writeByte_wf (writeByte_wf (writeByte_wf hm (by omega) _) (by omega) _) (by omega) _) (by omega) _

/-- The four bytes a word write stores. -/
theorem Memory.readByte_putWord_at {m : Memory} (hm : m.wf = true) {a : Nat} (ha : a + 3 < 65536) (v : Word)
    {i : Nat} (hi : i < 4) : (m.putWord a v).readByte (a + i) = byteOfWord v i := by
  have h0 := writeByte_wf hm (a := a) (by omega) (byteOfWord v 0)
  have h1 := writeByte_wf h0 (a := a + 1) (by omega) (byteOfWord v 1)
  have h2 := writeByte_wf h1 (a := a + 2) (by omega) (byteOfWord v 2)
  unfold Memory.putWord
  match i, hi with
  | 0, _ =>
    rw [readByte_writeByte_ne _ _ (by omega), readByte_writeByte_ne _ _ (by omega),
      readByte_writeByte_ne _ _ (by omega)]
    exact readByte_writeByte_same hm _ _
  | 1, _ =>
    rw [readByte_writeByte_ne _ _ (by omega), readByte_writeByte_ne _ _ (by omega)]
    exact readByte_writeByte_same h0 _ _
  | 2, _ =>
    rw [readByte_writeByte_ne _ _ (by omega)]
    exact readByte_writeByte_same h1 _ _
  | 3, _ => exact readByte_writeByte_same h2 _ _

/-- Every byte outside the four stored ones reads as before. -/
theorem Memory.readByte_putWord_ne (m : Memory) {a a' : Nat} (v : Word) (h : a' < a ∨ a + 4 ≤ a') :
    (m.putWord a v).readByte a' = m.readByte a' := by
  unfold Memory.putWord
  rw [readByte_writeByte_ne _ _ (by omega), readByte_writeByte_ne _ _ (by omega),
    readByte_writeByte_ne _ _ (by omega), readByte_writeByte_ne _ _ (by omega)]

/-- The address check passes exactly on the aligned addresses inside the memory. -/
theorem checkAddr_eq_none {addr : Word} :
    checkAddr addr = none ↔ addr.toNat % 4 = 0 ∧ addr.toNat ≤ 65532 := by
  unfold checkAddr
  split
  · rename_i h
    simp only [reduceCtorEq, false_iff]
    intro hh
    exact h hh.1
  · rename_i h
    split
    · rename_i h2
      simp only [reduceCtorEq, false_iff]
      simp only [Config.memSize, Config.wordBytes] at h2
      omega
    · rename_i h2
      simp only [Config.memSize, Config.wordBytes] at h2
      simp only [true_iff]
      exact ⟨by simpa using h, by omega⟩

/-- A word write that succeeds is a valid address and the four bytes put there. -/
theorem Memory.writeWord_ok {m m' : Memory} {addr v : Word} (h : m.writeWord addr v = .ok m') :
    addr.toNat % 4 = 0 ∧ addr.toNat ≤ 65532 ∧ m' = m.putWord addr.toNat v := by
  unfold Memory.writeWord at h
  split at h
  · cases h
  · rename_i hc
    cases h
    exact ⟨(checkAddr_eq_none.1 hc).1, (checkAddr_eq_none.1 hc).2, rfl⟩

theorem Memory.writeWord_wf {m m' : Memory} {addr v : Word} (hm : m.wf = true) (h : m.writeWord addr v = .ok m') :
    m'.wf = true := by
  obtain ⟨_, hb, rfl⟩ := writeWord_ok h
  exact putWord_wf hm (by omega) v

/-- The bytes of a word make the word again. -/
theorem wordOfBytes_byteOfWord (v : Word) :
    wordOfBytes (byteOfWord v 0) (byteOfWord v 1) (byteOfWord v 2) (byteOfWord v 3) = v := by
  unfold wordOfBytes byteOfWord
  ext i hi
  simp only [BitVec.getElem_append, BitVec.getElem_extractLsb']
  repeat' split
  all_goals rw [← BitVec.getLsbD_eq_getElem]; congr 1; omega

end Sys2Proof.Machine
end

