-- ==== Sys2Proof/Laws/Operands.lean ====
section
/-!
SUPPORT. The laws of the operand forms.
-/

namespace Sys2Proof.Machine

/-- A valid index field names the register of its value. -/
theorem regIndex_of_ok {i : Int} (h : 0 ≤ i ∧ i ≤ 31) :
    regIndex i = some ⟨i.toNat, by obtain ⟨h0, h1⟩ := h; omega⟩ := by
  unfold regIndex
  rw [dif_pos h]

/-- An index field outside 0..31 names no register. -/
theorem regIndex_of_bad {i : Int} (h : i < 0 ∨ 31 < i) : regIndex i = none := by
  unfold regIndex
  rw [dif_neg (by omega)]

theorem regIndex_eq_none {i : Int} : regIndex i = none ↔ i < 0 ∨ 31 < i := by
  refine ⟨fun h => ?_, regIndex_of_bad⟩
  by_contra hc
  rw [regIndex_of_ok (by omega)] at h
  cases h

/-- What a valid index field says: it is in range, and its register has its value. -/
theorem regIndex_eq_some {i : Int} {d : RegIdx} : regIndex i = some d ↔ i = (d : Nat) := by
  constructor
  · intro h
    by_cases hok : 0 ≤ i ∧ i ≤ 31
    · rw [regIndex_of_ok hok] at h
      cases h
      obtain ⟨h0, h1⟩ := hok
      simp only
      omega
    · rw [regIndex_of_bad (by omega)] at h
      cases h
  · rintro rfl
    have hd := d.isLt
    rw [regIndex_of_ok (by omega)]
    simp

/-- A register's own number names it. -/
@[simp] theorem regIndex_val (d : RegIdx) : regIndex ((d : Nat) : Int) = some d := regIndex_eq_some.2 rfl

end Sys2Proof.Machine
end

