-- ==== Sys2Proof/Laws/State.lean ====
section
/-!
SUPPORT. What each update of State does to each field: one lemma for each field and update, true by rfl.
-/

namespace Sys2Proof.Machine

variable (s : State)

/-! ### writeReg -/

@[simp] theorem State.writeReg_regs (d : RegIdx) (v : Word) : (s.writeReg d v).regs = s.regs.set d v := rfl
@[simp] theorem State.writeReg_flags (d : RegIdx) (v : Word) : (s.writeReg d v).flags = s.flags := rfl
@[simp] theorem State.writeReg_pc (d : RegIdx) (v : Word) : (s.writeReg d v).pc = s.pc := rfl
@[simp] theorem State.writeReg_steps (d : RegIdx) (v : Word) : (s.writeReg d v).steps = s.steps := rfl
@[simp] theorem State.writeReg_last (d : RegIdx) (v : Word) : (s.writeReg d v).last = d := rfl
@[simp] theorem State.writeReg_lastValid (d : RegIdx) (v : Word) : (s.writeReg d v).lastValid = true := rfl
@[simp] theorem State.writeReg_status (d : RegIdx) (v : Word) : (s.writeReg d v).status = s.status := rfl
@[simp] theorem State.writeReg_errKind (d : RegIdx) (v : Word) : (s.writeReg d v).errKind = s.errKind := rfl
@[simp] theorem State.writeReg_errPc (d : RegIdx) (v : Word) : (s.writeReg d v).errPc = s.errPc := rfl
@[simp] theorem State.writeReg_result (d : RegIdx) (v : Word) : (s.writeReg d v).result = s.result := rfl
@[simp] theorem State.writeReg_resultValid (d : RegIdx) (v : Word) : (s.writeReg d v).resultValid = s.resultValid := rfl
@[simp] theorem State.writeReg_prog (d : RegIdx) (v : Word) : (s.writeReg d v).prog = s.prog := rfl
@[simp] theorem State.writeReg_memPresent (d : RegIdx) (v : Word) : (s.writeReg d v).memPresent = s.memPresent := rfl
@[simp] theorem State.writeReg_mem (d : RegIdx) (v : Word) : (s.writeReg d v).mem = s.mem := rfl
@[simp] theorem State.writeReg_plen (d : RegIdx) (v : Word) : (s.writeReg d v).plen = s.plen := rfl

/-! ### setFlags -/

@[simp] theorem State.setFlags_regs (f : Flags) : (s.setFlags f).regs = s.regs := rfl
@[simp] theorem State.setFlags_flags (f : Flags) : (s.setFlags f).flags = f := rfl
@[simp] theorem State.setFlags_pc (f : Flags) : (s.setFlags f).pc = s.pc := rfl
@[simp] theorem State.setFlags_steps (f : Flags) : (s.setFlags f).steps = s.steps := rfl
@[simp] theorem State.setFlags_last (f : Flags) : (s.setFlags f).last = s.last := rfl
@[simp] theorem State.setFlags_lastValid (f : Flags) : (s.setFlags f).lastValid = s.lastValid := rfl
@[simp] theorem State.setFlags_status (f : Flags) : (s.setFlags f).status = s.status := rfl
@[simp] theorem State.setFlags_errKind (f : Flags) : (s.setFlags f).errKind = s.errKind := rfl
@[simp] theorem State.setFlags_errPc (f : Flags) : (s.setFlags f).errPc = s.errPc := rfl
@[simp] theorem State.setFlags_result (f : Flags) : (s.setFlags f).result = s.result := rfl
@[simp] theorem State.setFlags_resultValid (f : Flags) : (s.setFlags f).resultValid = s.resultValid := rfl
@[simp] theorem State.setFlags_prog (f : Flags) : (s.setFlags f).prog = s.prog := rfl
@[simp] theorem State.setFlags_memPresent (f : Flags) : (s.setFlags f).memPresent = s.memPresent := rfl
@[simp] theorem State.setFlags_mem (f : Flags) : (s.setFlags f).mem = s.mem := rfl
@[simp] theorem State.setFlags_plen (f : Flags) : (s.setFlags f).plen = s.plen := rfl
@[simp] theorem State.setFlags_readReg (f : Flags) (i : RegIdx) : (s.setFlags f).readReg i = s.readReg i := rfl

/-! ### setPc -/

@[simp] theorem State.setPc_regs (t : ProgIndex) : (s.setPc t).regs = s.regs := rfl
@[simp] theorem State.setPc_flags (t : ProgIndex) : (s.setPc t).flags = s.flags := rfl
@[simp] theorem State.setPc_pc (t : ProgIndex) : (s.setPc t).pc = t := rfl
@[simp] theorem State.setPc_steps (t : ProgIndex) : (s.setPc t).steps = s.steps := rfl
@[simp] theorem State.setPc_last (t : ProgIndex) : (s.setPc t).last = s.last := rfl
@[simp] theorem State.setPc_lastValid (t : ProgIndex) : (s.setPc t).lastValid = s.lastValid := rfl
@[simp] theorem State.setPc_status (t : ProgIndex) : (s.setPc t).status = s.status := rfl
@[simp] theorem State.setPc_errKind (t : ProgIndex) : (s.setPc t).errKind = s.errKind := rfl
@[simp] theorem State.setPc_errPc (t : ProgIndex) : (s.setPc t).errPc = s.errPc := rfl
@[simp] theorem State.setPc_result (t : ProgIndex) : (s.setPc t).result = s.result := rfl
@[simp] theorem State.setPc_resultValid (t : ProgIndex) : (s.setPc t).resultValid = s.resultValid := rfl
@[simp] theorem State.setPc_prog (t : ProgIndex) : (s.setPc t).prog = s.prog := rfl
@[simp] theorem State.setPc_memPresent (t : ProgIndex) : (s.setPc t).memPresent = s.memPresent := rfl
@[simp] theorem State.setPc_mem (t : ProgIndex) : (s.setPc t).mem = s.mem := rfl
@[simp] theorem State.setPc_plen (t : ProgIndex) : (s.setPc t).plen = s.plen := rfl
@[simp] theorem State.setPc_readReg (t : ProgIndex) (i : RegIdx) : (s.setPc t).readReg i = s.readReg i := rfl

/-! ### advance -/

@[simp] theorem State.advance_regs : (s.advance).regs = s.regs := rfl
@[simp] theorem State.advance_flags : (s.advance).flags = s.flags := rfl
@[simp] theorem State.advance_pc : (s.advance).pc = s.pc + 1 := rfl
@[simp] theorem State.advance_steps : (s.advance).steps = s.steps := rfl
@[simp] theorem State.advance_last : (s.advance).last = s.last := rfl
@[simp] theorem State.advance_lastValid : (s.advance).lastValid = s.lastValid := rfl
@[simp] theorem State.advance_status : (s.advance).status = s.status := rfl
@[simp] theorem State.advance_errKind : (s.advance).errKind = s.errKind := rfl
@[simp] theorem State.advance_errPc : (s.advance).errPc = s.errPc := rfl
@[simp] theorem State.advance_result : (s.advance).result = s.result := rfl
@[simp] theorem State.advance_resultValid : (s.advance).resultValid = s.resultValid := rfl
@[simp] theorem State.advance_prog : (s.advance).prog = s.prog := rfl
@[simp] theorem State.advance_memPresent : (s.advance).memPresent = s.memPresent := rfl
@[simp] theorem State.advance_mem : (s.advance).mem = s.mem := rfl
@[simp] theorem State.advance_plen : (s.advance).plen = s.plen := rfl
@[simp] theorem State.advance_readReg (i : RegIdx) : (s.advance).readReg i = s.readReg i := rfl

/-! ### setMem -/

@[simp] theorem State.setMem_regs (m : Memory) : (s.setMem m).regs = s.regs := rfl
@[simp] theorem State.setMem_flags (m : Memory) : (s.setMem m).flags = s.flags := rfl
@[simp] theorem State.setMem_pc (m : Memory) : (s.setMem m).pc = s.pc := rfl
@[simp] theorem State.setMem_steps (m : Memory) : (s.setMem m).steps = s.steps := rfl
@[simp] theorem State.setMem_last (m : Memory) : (s.setMem m).last = s.last := rfl
@[simp] theorem State.setMem_lastValid (m : Memory) : (s.setMem m).lastValid = s.lastValid := rfl
@[simp] theorem State.setMem_status (m : Memory) : (s.setMem m).status = s.status := rfl
@[simp] theorem State.setMem_errKind (m : Memory) : (s.setMem m).errKind = s.errKind := rfl
@[simp] theorem State.setMem_errPc (m : Memory) : (s.setMem m).errPc = s.errPc := rfl
@[simp] theorem State.setMem_result (m : Memory) : (s.setMem m).result = s.result := rfl
@[simp] theorem State.setMem_resultValid (m : Memory) : (s.setMem m).resultValid = s.resultValid := rfl
@[simp] theorem State.setMem_prog (m : Memory) : (s.setMem m).prog = s.prog := rfl
@[simp] theorem State.setMem_memPresent (m : Memory) : (s.setMem m).memPresent = s.memPresent := rfl
@[simp] theorem State.setMem_mem (m : Memory) : (s.setMem m).mem = m := rfl
@[simp] theorem State.setMem_plen (m : Memory) : (s.setMem m).plen = s.plen := rfl
@[simp] theorem State.setMem_readReg (m : Memory) (i : RegIdx) : (s.setMem m).readReg i = s.readReg i := rfl

/-! ### countDispatch -/

@[simp] theorem State.countDispatch_regs : (s.countDispatch).regs = s.regs := rfl
@[simp] theorem State.countDispatch_flags : (s.countDispatch).flags = s.flags := rfl
@[simp] theorem State.countDispatch_pc : (s.countDispatch).pc = s.pc := rfl
@[simp] theorem State.countDispatch_steps : (s.countDispatch).steps = s.steps + 1 := rfl
@[simp] theorem State.countDispatch_last : (s.countDispatch).last = s.last := rfl
@[simp] theorem State.countDispatch_lastValid : (s.countDispatch).lastValid = s.lastValid := rfl
@[simp] theorem State.countDispatch_status : (s.countDispatch).status = s.status := rfl
@[simp] theorem State.countDispatch_errKind : (s.countDispatch).errKind = s.errKind := rfl
@[simp] theorem State.countDispatch_errPc : (s.countDispatch).errPc = s.errPc := rfl
@[simp] theorem State.countDispatch_result : (s.countDispatch).result = s.result := rfl
@[simp] theorem State.countDispatch_resultValid : (s.countDispatch).resultValid = s.resultValid := rfl
@[simp] theorem State.countDispatch_prog : (s.countDispatch).prog = s.prog := rfl
@[simp] theorem State.countDispatch_memPresent : (s.countDispatch).memPresent = s.memPresent := rfl
@[simp] theorem State.countDispatch_mem : (s.countDispatch).mem = s.mem := rfl
@[simp] theorem State.countDispatch_plen : (s.countDispatch).plen = s.plen := rfl
@[simp] theorem State.countDispatch_readReg (i : RegIdx) : (s.countDispatch).readReg i = s.readReg i := rfl

/-! ### raise -/

@[simp] theorem State.raise_regs (k : ErrorKind) (p : ProgIndex) : (s.raise k p).regs = s.regs := rfl
@[simp] theorem State.raise_flags (k : ErrorKind) (p : ProgIndex) : (s.raise k p).flags = s.flags := rfl
@[simp] theorem State.raise_pc (k : ErrorKind) (p : ProgIndex) : (s.raise k p).pc = s.pc := rfl
@[simp] theorem State.raise_steps (k : ErrorKind) (p : ProgIndex) : (s.raise k p).steps = s.steps := rfl
@[simp] theorem State.raise_last (k : ErrorKind) (p : ProgIndex) : (s.raise k p).last = s.last := rfl
@[simp] theorem State.raise_lastValid (k : ErrorKind) (p : ProgIndex) : (s.raise k p).lastValid = s.lastValid := rfl
@[simp] theorem State.raise_status (k : ErrorKind) (p : ProgIndex) : (s.raise k p).status = .faulted := rfl
@[simp] theorem State.raise_errKind (k : ErrorKind) (p : ProgIndex) : (s.raise k p).errKind = some k := rfl
@[simp] theorem State.raise_errPc (k : ErrorKind) (p : ProgIndex) : (s.raise k p).errPc = p := rfl
@[simp] theorem State.raise_result (k : ErrorKind) (p : ProgIndex) : (s.raise k p).result = s.result := rfl
@[simp] theorem State.raise_resultValid (k : ErrorKind) (p : ProgIndex) : (s.raise k p).resultValid = s.resultValid := rfl
@[simp] theorem State.raise_prog (k : ErrorKind) (p : ProgIndex) : (s.raise k p).prog = s.prog := rfl
@[simp] theorem State.raise_memPresent (k : ErrorKind) (p : ProgIndex) : (s.raise k p).memPresent = s.memPresent := rfl
@[simp] theorem State.raise_mem (k : ErrorKind) (p : ProgIndex) : (s.raise k p).mem = s.mem := rfl
@[simp] theorem State.raise_plen (k : ErrorKind) (p : ProgIndex) : (s.raise k p).plen = s.plen := rfl
@[simp] theorem State.raise_readReg (k : ErrorKind) (p : ProgIndex) (i : RegIdx) : (s.raise k p).readReg i = s.readReg i := rfl

/-! ### halt -/

@[simp] theorem State.halt_regs : (s.halt).regs = s.regs := rfl
@[simp] theorem State.halt_flags : (s.halt).flags = s.flags := rfl
@[simp] theorem State.halt_pc : (s.halt).pc = s.pc := rfl
@[simp] theorem State.halt_steps : (s.halt).steps = s.steps := rfl
@[simp] theorem State.halt_last : (s.halt).last = s.last := rfl
@[simp] theorem State.halt_lastValid : (s.halt).lastValid = s.lastValid := rfl
@[simp] theorem State.halt_status : (s.halt).status = .halted := rfl
@[simp] theorem State.halt_errKind : (s.halt).errKind = s.errKind := rfl
@[simp] theorem State.halt_errPc : (s.halt).errPc = s.errPc := rfl
@[simp] theorem State.halt_result : (s.halt).result = (if s.lastValid then sext64 (s.readReg s.last) else 0) := rfl
@[simp] theorem State.halt_resultValid : (s.halt).resultValid = s.lastValid := rfl
@[simp] theorem State.halt_prog : (s.halt).prog = s.prog := rfl
@[simp] theorem State.halt_memPresent : (s.halt).memPresent = s.memPresent := rfl
@[simp] theorem State.halt_mem : (s.halt).mem = s.mem := rfl
@[simp] theorem State.halt_plen : (s.halt).plen = s.plen := rfl
@[simp] theorem State.halt_readReg (i : RegIdx) : (s.halt).readReg i = s.readReg i := rfl

/-! ### cpuReset -/

@[simp] theorem State.cpuReset_regs (q : List ProgWord) (present : Bool) : (s.cpuReset q present).regs = Vector.replicate 32 0 := rfl
@[simp] theorem State.cpuReset_flags (q : List ProgWord) (present : Bool) : (s.cpuReset q present).flags = Flags.mk false false false false := rfl
@[simp] theorem State.cpuReset_pc (q : List ProgWord) (present : Bool) : (s.cpuReset q present).pc = 0 := rfl
@[simp] theorem State.cpuReset_steps (q : List ProgWord) (present : Bool) : (s.cpuReset q present).steps = 0 := rfl
@[simp] theorem State.cpuReset_last (q : List ProgWord) (present : Bool) : (s.cpuReset q present).last = 0 := rfl
@[simp] theorem State.cpuReset_lastValid (q : List ProgWord) (present : Bool) : (s.cpuReset q present).lastValid = false := rfl
@[simp] theorem State.cpuReset_status (q : List ProgWord) (present : Bool) : (s.cpuReset q present).status = .running := rfl
@[simp] theorem State.cpuReset_errKind (q : List ProgWord) (present : Bool) : (s.cpuReset q present).errKind = none := rfl
@[simp] theorem State.cpuReset_errPc (q : List ProgWord) (present : Bool) : (s.cpuReset q present).errPc = 0 := rfl
@[simp] theorem State.cpuReset_result (q : List ProgWord) (present : Bool) : (s.cpuReset q present).result = 0 := rfl
@[simp] theorem State.cpuReset_resultValid (q : List ProgWord) (present : Bool) : (s.cpuReset q present).resultValid = false := rfl
@[simp] theorem State.cpuReset_prog (q : List ProgWord) (present : Bool) : (s.cpuReset q present).prog = q := rfl
@[simp] theorem State.cpuReset_memPresent (q : List ProgWord) (present : Bool) : (s.cpuReset q present).memPresent = present := rfl
@[simp] theorem State.cpuReset_mem (q : List ProgWord) (present : Bool) : (s.cpuReset q present).mem = s.mem := rfl
@[simp] theorem State.cpuReset_plen (q : List ProgWord) (present : Bool) : (s.cpuReset q present).plen = q.length := rfl

/-! ### Reading a register after a write -/

@[simp] theorem State.writeReg_readReg_same (d : RegIdx) (v : Word) : (s.writeReg d v).readReg d = v := by
  simp [State.readReg]

theorem State.writeReg_readReg_ne (d i : RegIdx) (v : Word) (h : i ≠ d) :
    (s.writeReg d v).readReg i = s.readReg i := by
  have hne : (d : Nat) ≠ i := fun e => h (Fin.ext e.symm)
  simp [State.readReg, hne]

@[simp] theorem State.cpuReset_readReg (q : List ProgWord) (present : Bool) (i : RegIdx) :
    (s.cpuReset q present).readReg i = 0 := by
  simp [State.readReg]

@[simp] theorem State.reset_readReg (i : RegIdx) : State.reset.readReg i = 0 := by
  simp [State.readReg, State.reset]

/-- Two states with the same fields are the same: registers compared one by one. -/
theorem regs_ext (u v : Vector Word 32) (h : ∀ i : RegIdx, u[i] = v[i]) : u = v :=
  Vector.ext (fun i hi => h ⟨i, hi⟩)

end Sys2Proof.Machine
end

