-- ==== Sys2Proof/Laws/Exec.lean ====
section
/-!
SUPPORT. What each shared operation of an instruction can do, said once: if it answers a next state, then one of the
cases listed holds.
-/

namespace Sys2Proof.Machine

/-! ### The ALU block -/

@[simp] theorem flagsOf_z (r : Word) (c v : Bool) : (flagsOf r c v).z = decide (r = 0) := rfl
@[simp] theorem flagsOf_n (r : Word) (c v : Bool) : (flagsOf r c v).n = sign r := rfl
@[simp] theorem flagsOf_c (r : Word) (c v : Bool) : (flagsOf r c v).c = c := rfl
@[simp] theorem flagsOf_v (r : Word) (c v : Bool) : (flagsOf r c v).v = v := rfl

@[simp] theorem alu_add (a b : Word) (h) : alu .add a b h = aluAdd a b := rfl
@[simp] theorem alu_subtract (a b : Word) (h) : alu .subtract a b h = aluSubtract a b := rfl
@[simp] theorem alu_multiply (a b : Word) (h) : alu .multiply a b h = aluMultiply a b := rfl
@[simp] theorem alu_divide (a b : Word) (h) : alu .divide a b h = aluDivide a b (fun hb => h ⟨rfl, hb⟩) := rfl

/-! ### The fault outcome -/

theorem faultAtPc_eq_next {k : ErrorKind} {s t : State} (h : faultAtPc k s = .next t) : t = s.raise k s.pc := by
  unfold faultAtPc at h
  cases h
  rfl

/-! ### The instructions, by the operation they share -/

/-- LoadConst writes its register or faults. -/
theorem execLoadConst_next {dst imm : Int} {s t : State} (h : execLoadConst dst imm s = .next t) :
    (∃ d : RegIdx, dst = (d : Nat) ∧ t = (s.writeReg d (trunc32 imm)).advance) ∨
      ((dst < 0 ∨ 31 < dst) ∧ t = s.raise .registerOutOfRange s.pc) := by
  unfold execLoadConst at h
  split at h
  · rename_i d hd
    cases h
    exact .inl ⟨d, regIndex_eq_some.1 hd, rfl⟩
  · rename_i hd
    exact .inr ⟨regIndex_eq_none.1 hd, faultAtPc_eq_next h⟩

/-- The four register-writing arithmetic instructions write register and flags, or fault. -/
theorem execArith_next {op : AluOp} {dst src : Int} {s t : State} (h : execArith op dst src s = .next t) :
    (∃ (d r : RegIdx) (hz : ¬ (op = .divide ∧ s.readReg r = 0)), dst = (d : Nat) ∧ src = (r : Nat) ∧
        t = ((s.writeReg d (alu op (s.readReg d) (s.readReg r) hz).r).setFlags
          (alu op (s.readReg d) (s.readReg r) hz).f).advance) ∨
      (∃ d r : RegIdx, dst = (d : Nat) ∧ src = (r : Nat) ∧ op = .divide ∧ s.readReg r = 0 ∧
        t = s.raise .divisionByZero s.pc) ∨
      ((dst < 0 ∨ 31 < dst ∨ src < 0 ∨ 31 < src) ∧ t = s.raise .registerOutOfRange s.pc) := by
  unfold execArith at h
  split at h
  · rename_i d r hd hr
    split at h
    · rename_i hz
      exact .inr (.inl ⟨d, r, regIndex_eq_some.1 hd, regIndex_eq_some.1 hr, hz.1, hz.2, faultAtPc_eq_next h⟩)
    · rename_i hz
      cases h
      exact .inl ⟨d, r, hz, regIndex_eq_some.1 hd, regIndex_eq_some.1 hr, rfl⟩
  · rename_i hno
    refine .inr (.inr ⟨?_, faultAtPc_eq_next h⟩)
    by_contra hc
    exact hno ⟨dst.toNat, by omega⟩ ⟨src.toNat, by omega⟩
      (regIndex_of_ok (by omega)) (regIndex_of_ok (by omega))

/-- Compare writes the flags or faults. -/
theorem execCompare_next {dst src : Int} {s t : State} (h : execCompare dst src s = .next t) :
    (∃ d r : RegIdx, dst = (d : Nat) ∧ src = (r : Nat) ∧
        t = (s.setFlags (aluSubtract (s.readReg d) (s.readReg r)).f).advance) ∨
      ((dst < 0 ∨ 31 < dst ∨ src < 0 ∨ 31 < src) ∧ t = s.raise .registerOutOfRange s.pc) := by
  unfold execCompare at h
  split at h
  · rename_i d r hd hr
    cases h
    exact .inl ⟨d, r, regIndex_eq_some.1 hd, regIndex_eq_some.1 hr, rfl⟩
  · rename_i hno
    refine .inr ⟨?_, faultAtPc_eq_next h⟩
    by_contra hc
    exact hno ⟨dst.toNat, by omega⟩ ⟨src.toNat, by omega⟩
      (regIndex_of_ok (by omega)) (regIndex_of_ok (by omega))

/-- A taken jump goes to its target or faults. -/
theorem takeJump_next {target : Nat} {s t : State} (h : takeJump target s = .next t) :
    (target ≤ s.plen ∧ t = s.setPc (BitVec.ofNat 32 target)) ∨
      (s.plen < target ∧ t = s.raise .jumpTargetOutOfRange s.pc) := by
  unfold takeJump at h
  split at h
  · rename_i hok
    cases h
    exact .inl ⟨hok, rfl⟩
  · rename_i hbad
    exact .inr ⟨Nat.lt_of_not_le hbad, faultAtPc_eq_next h⟩

/-- Load writes its register with the word read, or faults. -/
theorem execLoad_next {dst areg : Int} {s t : State} (h : execLoad dst areg s = .next t) :
    (∃ (d a : RegIdx) (v : Word), dst = (d : Nat) ∧ areg = (a : Nat) ∧ s.memPresent = true ∧
        s.mem.readWord (s.readReg a) = .ok v ∧ t = (s.writeReg d v).advance) ∨
      (∃ (d a : RegIdx) (e : MemError), dst = (d : Nat) ∧ areg = (a : Nat) ∧ s.memPresent = true ∧
        s.mem.readWord (s.readReg a) = .error e ∧ t = s.raise e.kind s.pc) ∨
      (∃ d a : RegIdx, dst = (d : Nat) ∧ areg = (a : Nat) ∧ s.memPresent = false ∧
        t = s.raise .memoryNotAttached s.pc) ∨
      ((dst < 0 ∨ 31 < dst ∨ areg < 0 ∨ 31 < areg) ∧ t = s.raise .registerOutOfRange s.pc) := by
  unfold execLoad at h
  split at h
  · rename_i d a hd ha
    split at h
    · rename_i hp
      split at h
      · rename_i v hv
        cases h
        exact .inl ⟨d, a, v, regIndex_eq_some.1 hd, regIndex_eq_some.1 ha, hp, hv, rfl⟩
      · rename_i e he
        exact .inr (.inl ⟨d, a, e, regIndex_eq_some.1 hd, regIndex_eq_some.1 ha, hp, he, faultAtPc_eq_next h⟩)
    · rename_i hp
      exact .inr (.inr (.inl ⟨d, a, regIndex_eq_some.1 hd, regIndex_eq_some.1 ha, by simpa using hp,
        faultAtPc_eq_next h⟩))
  · rename_i hno
    refine .inr (.inr (.inr ⟨?_, faultAtPc_eq_next h⟩))
    by_contra hc
    exact hno ⟨dst.toNat, by omega⟩ ⟨areg.toNat, by omega⟩
      (regIndex_of_ok (by omega)) (regIndex_of_ok (by omega))

/-- Store writes the memory or faults. -/
theorem execStore_next {src areg : Int} {s t : State} (h : execStore src areg s = .next t) :
    (∃ (r a : RegIdx) (m : Memory), src = (r : Nat) ∧ areg = (a : Nat) ∧ s.memPresent = true ∧
        s.mem.writeWord (s.readReg a) (s.readReg r) = .ok m ∧ t = (s.setMem m).advance) ∨
      (∃ (r a : RegIdx) (e : MemError), src = (r : Nat) ∧ areg = (a : Nat) ∧ s.memPresent = true ∧
        s.mem.writeWord (s.readReg a) (s.readReg r) = .error e ∧ t = s.raise e.kind s.pc) ∨
      (∃ r a : RegIdx, src = (r : Nat) ∧ areg = (a : Nat) ∧ s.memPresent = false ∧
        t = s.raise .memoryNotAttached s.pc) ∨
      ((src < 0 ∨ 31 < src ∨ areg < 0 ∨ 31 < areg) ∧ t = s.raise .registerOutOfRange s.pc) := by
  unfold execStore at h
  split at h
  · rename_i r a hr ha
    split at h
    · rename_i hp
      split at h
      · rename_i m hm
        cases h
        exact .inl ⟨r, a, m, regIndex_eq_some.1 hr, regIndex_eq_some.1 ha, hp, hm, rfl⟩
      · rename_i e he
        exact .inr (.inl ⟨r, a, e, regIndex_eq_some.1 hr, regIndex_eq_some.1 ha, hp, he, faultAtPc_eq_next h⟩)
    · rename_i hp
      exact .inr (.inr (.inl ⟨r, a, regIndex_eq_some.1 hr, regIndex_eq_some.1 ha, by simpa using hp,
        faultAtPc_eq_next h⟩))
  · rename_i hno
    refine .inr (.inr (.inr ⟨?_, faultAtPc_eq_next h⟩))
    by_contra hc
    exact hno ⟨src.toNat, by omega⟩ ⟨areg.toNat, by omega⟩
      (regIndex_of_ok (by omega)) (regIndex_of_ok (by omega))

/-! ### The step -/

/-- The prologue halts, faults, or dispatches what the word at `pc` decodes to. -/
theorem prologue_cases (s : State) :
    (s.pc.toNat = s.plen ∧ prologue s = .ended s.halt) ∨
      (s.pc.toNat ≠ s.plen ∧ 1000000 < (s.steps + 1).toNat ∧
        prologue s = .ended (s.countDispatch.raise .stepLimitExceeded s.pc)) ∨
      (s.pc.toNat ≠ s.plen ∧ (s.steps + 1).toNat ≤ 1000000 ∧
        ((s.prog[s.pc.toNat]? = none ∧ prologue s = .outside) ∨
          (∃ w, s.prog[s.pc.toNat]? = some w ∧
            ((∃ i, decode w = .ok i ∧ prologue s = .dispatch i s.countDispatch) ∨
              (∃ e, decode w = .error e ∧ prologue s = .ended (s.countDispatch.raise .unknownOpcode s.pc)))))) := by
  by_cases h1 : s.pc.toNat = s.plen
  · exact .inl ⟨h1, by simp [prologue, h1]⟩
  · by_cases h2 : 1000000 < (s.steps + 1).toNat
    · refine .inr (.inl ⟨h1, h2, ?_⟩)
      unfold prologue
      rw [if_neg h1]
      exact if_pos h2
    · refine .inr (.inr ⟨h1, Nat.le_of_not_lt h2, ?_⟩)
      have hp : prologue s = fetchDecode s.countDispatch := by
        unfold prologue
        rw [if_neg h1]
        exact if_neg h2
      rw [hp]
      unfold fetchDecode
      simp only [State.countDispatch_prog, State.countDispatch_pc]
      cases hw : s.prog[s.pc.toNat]? with
      | none => exact .inl ⟨rfl, rfl⟩
      | some w =>
        refine .inr ⟨w, rfl, ?_⟩
        cases hd : decode w with
        | ok i => exact .inl ⟨i, rfl, by simp only [hd]⟩
        | error e =>
          cases e
          exact .inr ⟨_, rfl, by simp only [hd]⟩

/-- A machine that is not running stays as it is (41_execution_loop.md R141). -/
theorem step_of_not_running {s : State} (h : s.status ≠ .running) : step s = .next s := by
  unfold step
  cases hs : s.status <;> simp_all

/-- Where the prologue ends the run, so does the step. -/
theorem step_of_ended {s t : State} (h : s.status = .running) (hp : prologue s = .ended t) : step s = .next t := by
  simp only [step, h, hp]

/-- Where the prologue dispatches an instruction, the step is that instruction's own part. -/
theorem step_of_dispatch {s t : State} {i : Instr} (h : s.status = .running) (hp : prologue s = .dispatch i t) :
    step s = exec i t := by
  simp only [step, h, hp]

/-- Where there is nothing to fetch, the step is the model's own fault. -/
theorem step_of_outside {s : State} (h : s.status = .running) (hp : prologue s = .outside) :
    step s = .fault .fetchOutsideProgram := by
  simp only [step, h, hp]

/-- What one step of a running machine can do: halt, pass the counter's limit, meet an unknown opcode, or run an
instruction on the state whose `steps` counts it. -/
theorem step_next {s t : State} (hs : s.status = .running) (h : step s = .next t) :
    (s.pc.toNat = s.plen ∧ t = s.halt) ∨
      (s.pc.toNat ≠ s.plen ∧ 1000000 < (s.steps + 1).toNat ∧
        t = s.countDispatch.raise .stepLimitExceeded s.pc) ∨
      (s.pc.toNat < s.plen ∧ (s.steps + 1).toNat ≤ 1000000 ∧
        (t = s.countDispatch.raise .unknownOpcode s.pc ∨ ∃ i : Instr, exec i s.countDispatch = .next t)) := by
  rcases prologue_cases s with ⟨h1, hp⟩ | ⟨h1, h2, hp⟩ | ⟨h1, h2, ⟨_, hp⟩ | ⟨w, hw, hd⟩⟩
  · rw [step_of_ended hs hp] at h
    cases h
    exact .inl ⟨h1, rfl⟩
  · rw [step_of_ended hs hp] at h
    cases h
    exact .inr (.inl ⟨h1, h2, rfl⟩)
  · rw [step_of_outside hs hp] at h
    cases h
  · have hlt : s.pc.toNat < s.plen := (List.getElem?_eq_some_iff.1 hw).1
    rcases hd with ⟨i, _, hp⟩ | ⟨e, _, hp⟩
    · rw [step_of_dispatch hs hp] at h
      exact .inr (.inr ⟨hlt, h2, .inr ⟨i, h⟩⟩)
    · rw [step_of_ended hs hp] at h
      cases h
      exact .inr (.inr ⟨hlt, h2, .inl rfl⟩)

/-! ### The placed word -/

/-- A placed word stands at its index. -/
theorem putProgWord_getElem (p : List ProgWord) (i : Nat) (w : ProgWord) : (putProgWord p i w)[i]? = some w := by
  have hlen : (p.take i ++ List.replicate (i - p.length) (0 : ProgWord)).length = i := by
    simp only [List.length_append, List.length_take, List.length_replicate]
    omega
  unfold putProgWord
  rw [List.append_assoc _ [w], List.getElem?_append_right (by omega), hlen, Nat.sub_self]
  rfl

/-- The program reaches past a placed word. -/
theorem putProgWord_length (p : List ProgWord) (i : Nat) (w : ProgWord) : i < (putProgWord p i w).length :=
  (List.getElem?_eq_some_iff.1 (putProgWord_getElem p i w)).1

/-- After `withFetchWord` the very next step runs the instruction the word decodes to, in every state. -/
theorem step_withFetchWord {s : State} {nbits w : Nat} {i : Instr} (hd : decode (tableWord nbits w) = .ok i) :
    step (s.withFetchWord nbits w) = exec i (s.withFetchWord nbits w).countDispatch := by
  have key : ∀ u : State, u.status = .running → u.prog[u.pc.toNat]? = some (tableWord nbits w) →
      u.steps.toNat < 1000000 → step u = exec i u.countDispatch := by
    intro u hu hw hst
    have hc : (u.steps + 1).toNat = u.steps.toNat + 1 := by
      rw [BitVec.toNat_add]
      simp only [BitVec.ofNat_eq_ofNat, BitVec.toNat_ofNat]
      omega
    have hlt : u.pc.toNat < u.plen := (List.getElem?_eq_some_iff.1 hw).1
    apply step_of_dispatch hu
    rcases prologue_cases u with ⟨h, _⟩ | ⟨_, h, _⟩ | ⟨_, _, ⟨h, _⟩ | ⟨w', hw', ⟨i', hi', hp⟩ | ⟨e, he, _⟩⟩⟩
    · omega
    · omega
    · rw [hw] at h
      cases h
    · rw [hw] at hw'
      cases hw'
      rw [hd] at hi'
      cases hi'
      exact hp
    · rw [hw] at hw'
      cases hw'
      rw [hd] at he
      cases he
  have idle : ∀ u : State, u.start [tableWord nbits w] u.memPresent =
      u.cpuReset [tableWord nbits w] u.memPresent := fun u => if_neg (by simp)
  cases hs : s.status with
  | running =>
    have e : s.withFetchWord nbits w =
        { s with
          prog := putProgWord s.prog s.pc.toNat (tableWord nbits w)
          steps := if s.steps.toNat < Config.stepLimit then s.steps else 0 } := by
      simp only [State.withFetchWord, State.placeWord, hs]
    rw [e]
    refine key _ hs (putProgWord_getElem _ _ _) ?_
    simp only [Config.stepLimit]
    split
    · assumption
    · decide
  | idle | halted | faulted =>
    have e : s.withFetchWord nbits w = s.cpuReset [tableWord nbits w] s.memPresent := by
      simp only [State.withFetchWord, State.placeWord, hs, idle]
    rw [e]
    exact key _ rfl rfl (by show (0 : BitVec 32).toNat < 1000000; decide)

end Sys2Proof.Machine
end

