-- ==== Sys2Proof/Laws/Instr.lean ====
section
/-!
SUPPORT. What an instruction can do, said once for all eleven: if `exec` answers a next state, it is a fault of the
instruction's row of the fault table, or one of six updates.
-/

namespace Sys2Proof.Machine

/-- One of the two index fields is bad, so the instruction uses a bad one. -/
theorem exists_bad_of_pair {x y : Int} (h : x < 0 ∨ 31 < x ∨ y < 0 ∨ 31 < y) : ∃ f ∈ [x, y], BadReg f := by
  rcases h with h | h | h | h
  · exact ⟨x, by simp, .inl h⟩
  · exact ⟨x, by simp, .inr h⟩
  · exact ⟨y, by simp, .inl h⟩
  · exact ⟨y, by simp, .inr h⟩

/-- The updates an instruction makes when it completes, by the tables of Safety.lean. -/
inductive Completes (i : Instr) (s t : State) : Prop where
  /-- A register without flags: LoadConst and Load. -/
  | register (d : RegIdx) (v : Word) (dest : destField i = some ((d : Nat) : Int)) (noFlags : producesFlags i = false)
      (noJump : jumpTaken s.flags.z i = false) (noStore : ∀ x y : Int, i ≠ .store x y)
      (next : t = (s.writeReg d v).advance)
  /-- A register and the flags: Add, Subtract, Multiply, Divide. -/
  | registerAndFlags (d : RegIdx) (v : Word) (f : Flags) (dest : destField i = some ((d : Nat) : Int))
      (flags : producesFlags i = true) (noJump : jumpTaken s.flags.z i = false) (noStore : ∀ x y : Int, i ≠ .store x y)
      (next : t = ((s.writeReg d v).setFlags f).advance)
  /-- The flags alone: Compare. -/
  | flags (f : Flags) (noDest : destField i = none) (flags : producesFlags i = true)
      (noJump : jumpTaken s.flags.z i = false) (noStore : ∀ x y : Int, i ≠ .store x y) (next : t = (s.setFlags f).advance)
  /-- pc alone: an untaken jump. -/
  | untaken (noDest : destField i = none) (noFlags : producesFlags i = false) (noJump : jumpTaken s.flags.z i = false)
      (noStore : ∀ x y : Int, i ≠ .store x y) (next : t = s.advance)
  /-- A taken jump. -/
  | taken (g : Nat) (noDest : destField i = none) (noFlags : producesFlags i = false)
      (jump : jumpTaken s.flags.z i = true) (noStore : ∀ x y : Int, i ≠ .store x y) (target : jumpTarget i = some g)
      (inRange : g ≤ s.plen) (next : t = s.setPc (BitVec.ofNat 32 g))
  /-- The memory: Store. -/
  | memory (r q : RegIdx) (m : Memory) (store : i = .store (r : Nat) (q : Nat)) (present : s.memPresent = true)
      (write : s.mem.writeWord (s.readReg q) (s.readReg r) = .ok m) (next : t = (s.setMem m).advance)

/-- A fault that the instruction raises: one of its row, and RegisterOutOfRange only for a bad index it uses. -/
abbrev Faults (i : Instr) (s t : State) : Prop :=
  ∃ k ∈ faultKinds i, t = s.raise k s.pc ∧ (k = .registerOutOfRange → ∃ f ∈ usedRegFields i, BadReg f)

/-- The arithmetic shape, for an operation that is not Divide. -/
theorem execArith_completes {op : AluOp} {i : Instr} {dst src : Int} {s t : State} (hop : op ≠ .divide)
    (hd : destField i = some dst) (hf : producesFlags i = true) (hj : jumpTaken s.flags.z i = false)
    (hst : ∀ x y : Int, i ≠ .store x y) (hu : usedRegFields i = [dst, src]) (hk : .registerOutOfRange ∈ faultKinds i)
    (h : execArith op dst src s = .next t) : Completes i s t ∨ Faults i s t := by
  rcases execArith_next h with ⟨d, r, hz, rfl, rfl, rfl⟩ | ⟨d, r, rfl, rfl, ho, _, rfl⟩ | ⟨hb, rfl⟩
  · exact .inl (.registerAndFlags d _ _ hd hf hj hst rfl)
  · exact absurd ho hop
  · exact .inr ⟨_, hk, rfl, fun _ => hu ▸ exists_bad_of_pair hb⟩

/-- A jump that is taken. -/
theorem takeJump_completes {i : Instr} {g : Nat} {s t : State} (hd : destField i = none) (hf : producesFlags i = false)
    (hj : jumpTaken s.flags.z i = true) (hst : ∀ x y : Int, i ≠ .store x y) (hg : jumpTarget i = some g)
    (hk : faultKinds i = [.jumpTargetOutOfRange]) (h : takeJump g s = .next t) : Completes i s t ∨ Faults i s t := by
  rcases takeJump_next h with ⟨hle, rfl⟩ | ⟨_, rfl⟩
  · exact .inl (.taken g hd hf hj hst hg hle rfl)
  · exact .inr ⟨_, by simp [hk], rfl, by simp⟩

/-- Every next state of an instruction is a completion or a fault. -/
theorem exec_next {i : Instr} {s t : State} (h : exec i s = .next t) : Completes i s t ∨ Faults i s t := by
  cases i with
  | loadConst dst imm =>
    rcases execLoadConst_next h with ⟨d, rfl, rfl⟩ | ⟨hb, rfl⟩
    · exact .inl (.register d _ rfl rfl rfl (by simp) rfl)
    · exact .inr ⟨_, by simp [faultKinds], rfl, fun _ => ⟨dst, by simp [usedRegFields], hb⟩⟩
  | add dst src =>
    exact execArith_completes (by simp) rfl rfl rfl (by simp) rfl (by simp [faultKinds]) (dst := dst) (src := src) h
  | subtract dst src =>
    exact execArith_completes (by simp) rfl rfl rfl (by simp) rfl (by simp [faultKinds]) (dst := dst) (src := src) h
  | multiply dst src =>
    exact execArith_completes (by simp) rfl rfl rfl (by simp) rfl (by simp [faultKinds]) (dst := dst) (src := src) h
  | divide dst src =>
    rcases execArith_next h with ⟨d, r, hz, rfl, rfl, rfl⟩ | ⟨d, r, rfl, rfl, _, _, rfl⟩ | ⟨hb, rfl⟩
    · exact .inl (.registerAndFlags d _ _ rfl rfl rfl (by simp) rfl)
    · exact .inr ⟨_, by simp [faultKinds], rfl, by simp⟩
    · exact .inr ⟨_, by simp [faultKinds], rfl, fun _ => exists_bad_of_pair hb⟩
  | compare dst src =>
    rcases execCompare_next h with ⟨d, r, rfl, rfl, rfl⟩ | ⟨hb, rfl⟩
    · exact .inl (.flags _ rfl rfl rfl (by simp) rfl)
    · exact .inr ⟨_, by simp [faultKinds], rfl, fun _ => exists_bad_of_pair hb⟩
  | jump g => exact takeJump_completes rfl rfl rfl (by simp) rfl rfl h
  | jumpIfZero g =>
    simp only [exec, execJumpIfZero] at h
    split at h
    · rename_i hz
      exact takeJump_completes rfl rfl hz (by simp) rfl rfl h
    · rename_i hz
      cases h
      exact .inl (.untaken rfl rfl (by simpa [jumpTaken] using hz) (by simp) rfl)
  | jumpIfNotZero g =>
    simp only [exec, execJumpIfNotZero] at h
    split at h
    · rename_i hz
      cases h
      exact .inl (.untaken rfl rfl (by simpa [jumpTaken] using hz) (by simp) rfl)
    · rename_i hz
      exact takeJump_completes rfl rfl (by simpa [jumpTaken] using hz) (by simp) rfl rfl h
  | load dst areg =>
    rcases execLoad_next h with ⟨d, a, v, rfl, rfl, _, _, rfl⟩ | ⟨d, a, e, rfl, rfl, _, _, rfl⟩ |
      ⟨d, a, rfl, rfl, _, rfl⟩ | ⟨hb, rfl⟩
    · exact .inl (.register d _ rfl rfl rfl (by simp) rfl)
    · cases e <;> exact .inr ⟨_, by simp [faultKinds, MemError.kind], rfl, by simp [MemError.kind]⟩
    · exact .inr ⟨_, by simp [faultKinds], rfl, by simp⟩
    · exact .inr ⟨_, by simp [faultKinds], rfl, fun _ => exists_bad_of_pair hb⟩
  | store src areg =>
    rcases execStore_next h with ⟨r, a, m, rfl, rfl, hp, hw, rfl⟩ | ⟨r, a, e, rfl, rfl, _, _, rfl⟩ |
      ⟨r, a, rfl, rfl, _, rfl⟩ | ⟨hb, rfl⟩
    · exact .inl (.memory r a m rfl hp hw rfl)
    · cases e <;> exact .inr ⟨_, by simp [faultKinds, MemError.kind], rfl, by simp [MemError.kind]⟩
    · exact .inr ⟨_, by simp [faultKinds], rfl, by simp⟩
    · exact .inr ⟨_, by simp [faultKinds], rfl, fun _ => exists_bad_of_pair hb⟩

end Sys2Proof.Machine
end

