-- ==== Sys2Proof/Laws/PerInstr.lean ====
section
/-!
SUPPORT. The family OpcodeByte: the encoder writes each instruction's opcode number in the low byte of its word
(30_encoding.md R83, R86). One lemma for each constructor of Instr.
-/

namespace Sys2Proof.Laws.OpcodeByte

/-- The low byte of the encoding is the opcode. -/
def Statement (i : Instr) : Prop := (encode i).extractLsb' 0 8 = opcodeOf i

/-- The low byte of a packed word is its opcode field. -/
theorem packFields_low (op : BitVec 8) (dst src areg : Int) (target : Nat) (imm : Int) :
    (packFields op dst src areg target imm).extractLsb' 0 8 = op := by
  unfold packFields placeField
  ext i hi
  have h8 : i < 16 := by omega
  have h24 : i < 24 := by omega
  have h32 : i < 32 := by omega
  have h64 : i < 64 := by omega
  have h128 : i < 128 := by omega
  simp [BitVec.getElem_extractLsb', hi, h8, h24, h32, h64, h128]

theorem loadConst (dst imm : Int) : Statement (.loadConst dst imm) := packFields_low _ _ _ _ _ _
theorem add (dst src : Int) : Statement (.add dst src) := packFields_low _ _ _ _ _ _
theorem subtract (dst src : Int) : Statement (.subtract dst src) := packFields_low _ _ _ _ _ _
theorem multiply (dst src : Int) : Statement (.multiply dst src) := packFields_low _ _ _ _ _ _
theorem divide (dst src : Int) : Statement (.divide dst src) := packFields_low _ _ _ _ _ _
theorem compare (dst src : Int) : Statement (.compare dst src) := packFields_low _ _ _ _ _ _
theorem jump (target : Nat) : Statement (.jump target) := packFields_low _ _ _ _ _ _
theorem jumpIfZero (target : Nat) : Statement (.jumpIfZero target) := packFields_low _ _ _ _ _ _
theorem jumpIfNotZero (target : Nat) : Statement (.jumpIfNotZero target) := packFields_low _ _ _ _ _ _
theorem load (dst areg : Int) : Statement (.load dst areg) := packFields_low _ _ _ _ _ _
theorem store (src areg : Int) : Statement (.store src areg) := packFields_low _ _ _ _ _ _

end Sys2Proof.Laws.OpcodeByte
end

