-- ==== Sys2Proof/Tests/Slice0.lean ====
section
/-!
SUPPORT. The model's own tests. Expected values are those of spec/95_test_vectors.md (each test names its vector, such
as AD5 or LS8) or are worked out by hand from the rule a test names; none is copied from the model. At the end, for each
statement with hypotheses, a witness that meets them.
-/

namespace Sys2Proof.Tests

open Sys2Proof Sys2Proof.Machine

/-! ## WellFormed refuses each ill-formed field -/

theorem test_wf_accepts_bounds :
    (Instr.add (-128) 127).wellFormed = true ∧ (Instr.jump 4294967295).wellFormed = true ∧
      (Instr.loadConst 0 (-9223372036854775808)).wellFormed = true ∧
      (Instr.loadConst 0 9223372036854775807).wellFormed = true := by decide

theorem test_wf_refuses_low_dst : (Instr.add (-129) 0).wellFormed = false := by decide

theorem test_wf_refuses_high_src : (Instr.compare 0 128).wellFormed = false := by decide

theorem test_wf_refuses_high_areg : (Instr.load 0 128).wellFormed = false := by decide

theorem test_wf_refuses_low_store_src : (Instr.store (-129) 0).wellFormed = false := by decide

theorem test_wf_refuses_target : (Instr.jumpIfZero 4294967296).wellFormed = false := by decide

theorem test_wf_refuses_high_imm : (Instr.loadConst 0 9223372036854775808).wellFormed = false := by decide

theorem test_wf_refuses_low_imm : (Instr.loadConst 0 (-9223372036854775809)).wellFormed = false := by decide

/-! ## Decoding: the words of part 9 of the vectors, every constructor -/

/-- E1. -/
theorem test_decode_loadConst :
    (decode 0x0000000000000003_00000000_00_00_01_00#128).toOption = some (.loadConst 1 3) := by decide

/-- E18. -/
theorem test_decode_loadConst_most_negative :
    (decode 0x8000000000000000_00000000_00_00_00_00#128).toOption = some (.loadConst 0 (-9223372036854775808)) := by
  decide

/-- E3. -/
theorem test_decode_add : (decode 0x0000000000000000_00000000_00_02_01_01#128).toOption = some (.add 1 2) := by decide

/-- E14 and E15: an index field is signed. -/
theorem test_decode_signed_index :
    (decode 0x0000000000000000_00000000_00_00_FF_01#128).toOption = some (.add (-1) 0) ∧
      (decode 0x0000000000000000_00000000_00_80_00_01#128).toOption = some (.add 0 (-128)) := by decide

/-- E4. -/
theorem test_decode_subtract :
    (decode 0x0000000000000000_00000000_00_01_00_02#128).toOption = some (.subtract 0 1) := by decide

/-- E5. -/
theorem test_decode_multiply :
    (decode 0x0000000000000000_00000000_00_04_03_03#128).toOption = some (.multiply 3 4) := by decide

/-- E6. -/
theorem test_decode_divide :
    (decode 0x0000000000000000_00000000_00_1E_1F_04#128).toOption = some (.divide 31 30) := by decide

/-- E7. -/
theorem test_decode_compare :
    (decode 0x0000000000000000_00000000_00_02_01_05#128).toOption = some (.compare 1 2) := by decide

/-- E8 and E17: the target is unsigned. -/
theorem test_decode_jump :
    (decode 0x0000000000000000_00000007_00_00_00_06#128).toOption = some (.jump 7) ∧
      (decode 0x0000000000000000_FFFFFFFF_00_00_00_06#128).toOption = some (.jump 4294967295) := by decide

/-- E9. -/
theorem test_decode_jumpIfZero :
    (decode 0x0000000000000000_00000006_00_00_00_07#128).toOption = some (.jumpIfZero 6) := by decide

/-- E10. -/
theorem test_decode_jumpIfNotZero :
    (decode 0x0000000000000000_00000002_00_00_00_08#128).toOption = some (.jumpIfNotZero 2) := by decide

/-- E11. -/
theorem test_decode_load :
    (decode 0x0000000000000000_00000000_01_00_03_09#128).toOption = some (.load 3 1) := by decide

/-- E12, and LS15 with its unused `dst` field at 99. -/
theorem test_decode_store :
    (decode 0x0000000000000000_00000000_01_02_00_0A#128).toOption = some (.store 2 1) ∧
      (decode 0x0000000000000000_00000000_01_02_63_0A#128).toOption = some (.store 2 1) := by decide

/-- E16, F11. -/
theorem test_decode_rejects_unknown :
    (decode 0x0000000000000000_00000000_00_00_00_0B#128).toOption = none ∧
      (decode 0x0000000000000000_00000000_00_00_00_FF#128).toOption = none := by decide

/-- The encoder lays the fields out as E1, E6, E8 and E12 do. -/
theorem test_encode :
    encode (.loadConst 1 3) = 0x0000000000000003_00000000_00_00_01_00 ∧
      encode (.divide 31 30) = 0x0000000000000000_00000000_00_1E_1F_04 ∧
      encode (.jump 7) = 0x0000000000000000_00000007_00_00_00_06 ∧
      encode (.store 2 1) = 0x0000000000000000_00000000_01_02_00_0A := by decide

/-- E14 as the opcode table's 24 bits of an Add, the bits above being 0. -/
theorem test_decodeTableWord : decodeTableWord 24 0xAB_00FF01 = some (.add (-1) 0) := by decide

/-! ## Small states -/

/-- What the outcome's next state shows. -/
def view {α : Type} (o : Outcome) (f : State → α) : Option α :=
  match o with
  | .next t => some (f t)
  | _ => none

/-- A started machine: seven instructions, an attached zero memory, and the listed registers. -/
def demo (ws : List (RegIdx × Word)) : State :=
  { (State.reset.setMem State.reset.mem.clear).start (List.replicate 7 0) true with
    regs := ws.foldl (fun v p => v.set p.1 p.2) (Vector.replicate 32 0) }

/-- The flags in the order Z N C V of the vectors. -/
def zncv (z n c v : Bool) : Flags := { z := z, n := n, c := c, v := v }

/-- The memory of vectors M1 and LS2: DEADBEEF at 0x200. -/
def beefMem : Memory := State.reset.mem.clear.putWord 0x200 0xDEADBEEF

/-- `demo` with one program word. -/
def run1 (w : ProgWord) : State := { demo [] with prog := [w] }

/-! ## The ALU -/

/-- AD4, AD5, AD6, AD13. -/
theorem test_aluAdd :
    aluAdd 0x7FFFFFFF 1 = { r := 0x80000000, f := zncv false true false true } ∧
      aluAdd 0x80000000 0x80000000 = { r := 0, f := zncv true false true true } ∧
      aluAdd 0x80000000 0xFFFFFFFF = { r := 0x7FFFFFFF, f := zncv false false true true } ∧
      aluAdd 0x55555555 0xAAAAAAAB = { r := 0, f := zncv true false true false } := by decide +kernel

/-- SB3, SB6, SB8, SB12, SB15. -/
theorem test_aluSubtract :
    aluSubtract 0 1 = { r := 0xFFFFFFFF, f := zncv false true false false } ∧
      aluSubtract 0x80000000 1 = { r := 0x7FFFFFFF, f := zncv false false true true } ∧
      aluSubtract 0 0x80000000 = { r := 0x80000000, f := zncv false true false true } ∧
      aluSubtract 0x7FFFFFFF 0x80000000 = { r := 0xFFFFFFFF, f := zncv false true false true } ∧
      aluSubtract 0xDEADBEEF 0x12345678 = { r := 0xCC796877, f := zncv false true true false } := by decide +kernel

/-- MU4, MU6, MU7. -/
theorem test_aluMultiply :
    aluMultiply 0x00010000 0x00010000 = { r := 0, f := zncv true false false false } ∧
      aluMultiply 0x40000000 2 = { r := 0x80000000, f := zncv false true false false } ∧
      aluMultiply 0x12345678 0x9ABCDEF0 = { r := 0x242D2080, f := zncv false false false false } := by decide

/-- DV3, DV5, DV13. -/
theorem test_aluDivide :
    aluDivide 0xFFFFFFFF 1 (by decide) = { r := 0xFFFFFFFF, f := zncv false true false false } ∧
      aluDivide 0x80000000 0xFFFFFFFF (by decide) = { r := 0, f := zncv true false false false } ∧
      aluDivide 0xDEADBEEF 0x10 (by decide) = { r := 0x0DEADBEE, f := zncv false false false false } := by decide

/-- Decision D17: bit 0 Z, bit 1 N, bit 2 C, bit 3 V. -/
theorem test_flags_pack :
    (zncv true false false false).pack = 1 ∧ (zncv false true false false).pack = 2 ∧
      (zncv false false true false).pack = 4 ∧ (zncv false false false true).pack = 8 := by decide

/-! ## Instructions -/

/-- LC6, with every flag set before. -/
theorem test_loadConst :
    view (exec (.loadConst 5 (-2147483648)) ((demo []).setFlags (zncv true true true true)))
      (fun t => (t.readReg 5, t.flags, t.last, t.lastValid, t.pc)) =
        some (0x80000000, zncv true true true true, 5, true, 1) := by decide

/-- LC5, and LC10's fault. -/
theorem test_loadConst_truncates :
    view (exec (.loadConst 0 4294967301) (demo [])) (fun t => t.readReg 0) = some 5 ∧
      view (exec (.loadConst (-128) 7) (demo [])) (fun t => (t.status, t.errKind)) =
        some (.faulted, some .registerOutOfRange) := by decide

/-- AR1. -/
theorem test_add :
    view (exec (.add 1 2) (demo [(1, 0x7FFFFFFF), (2, 1)]))
      (fun t => (t.readReg 1, t.readReg 2, t.flags, t.last)) =
        some (0x80000000, 1, zncv false true false true, 1) := by decide +kernel

/-- AR2: operands are read before the write. -/
theorem test_add_same_register :
    view (exec (.add 4 4) (demo [(4, 0x80000000)])) (fun t => (t.readReg 4, t.flags)) =
      some (0, zncv true false true true) := by decide +kernel

/-- AR4. -/
theorem test_subtract :
    view (exec (.subtract 0 1) (demo [(0, 5), (1, 1)])) (fun t => (t.readReg 0, t.flags, t.last, t.pc)) =
      some (4, zncv false false true false, 0, 1) := by decide +kernel

/-- AR6: C and V are cleared. -/
theorem test_multiply :
    view (exec (.multiply 3 4) ((demo [(3, 6), (4, 7)]).setFlags (zncv false false true true)))
      (fun t => (t.readReg 3, t.flags)) = some (0x2A, zncv false false false false) := by decide

/-- AR8. -/
theorem test_divide :
    view (exec (.divide 31 30) (demo [(31, 0x64), (30, 7)])) (fun t => (t.readReg 31, t.flags, t.last)) =
      some (0xE, zncv false false false false, 31) := by decide

/-- AR10 and F6: the zero divisor faults and keeps the flags; a bad index is found first. -/
theorem test_divide_faults :
    view (exec (.divide 6 6) ((demo []).setFlags (zncv false true false true)))
        (fun t => (t.errKind, t.flags, t.pc, t.lastValid)) =
      some (some .divisionByZero, zncv false true false true, 0, false) ∧
      view (exec (.divide 40 2) (demo [])) (fun t => t.errKind) = some (some .registerOutOfRange) := by decide

/-- AR11. -/
theorem test_compare :
    view (exec (.compare 1 2) { demo [(1, 3), (2, 5)] with last := 2, lastValid := true })
      (fun t => (t.readReg 1, t.flags, t.last, t.pc)) = some (3, zncv false true false false, 2, 1) := by decide +kernel

/-- AR14 and F3. -/
theorem test_compare_unwritten :
    view (exec (.compare 0 1) (demo [])) (fun t => (t.flags, t.lastValid)) =
        some (zncv true false true false, false) ∧
      view (exec (.compare 0 127) (demo [])) (fun t => t.errKind) = some (some .registerOutOfRange) := by decide +kernel

/-- J1. -/
theorem test_jump_to_end : view (exec (.jump 7) ((demo []).setPc 5)) (fun t => (t.status, t.pc)) = some (.running, 7) := by
  decide

/-- J3. -/
theorem test_jump_beyond_end :
    view (exec (.jump 8) ((demo []).setPc 5)) (fun t => (t.errKind, t.errPc, t.pc)) =
      some (some .jumpTargetOutOfRange, 5, 5) := by decide

/-- J4, J7. -/
theorem test_jumpIfZero :
    view (exec (.jumpIfZero 6) (((demo []).setPc 3).setFlags (zncv true false false false))) (fun t => t.pc) = some 6 ∧
      view (exec (.jumpIfZero 8) ((demo []).setPc 3)) (fun t => (t.status, t.pc)) = some (.running, 4) := by decide

/-- J6. -/
theorem test_jumpIfZero_fault :
    view (exec (.jumpIfZero 8) (((demo []).setPc 3).setFlags (zncv true false false false)))
      (fun t => (t.errKind, t.errPc)) = some (some .jumpTargetOutOfRange, 3) := by decide

/-- J9, J8. -/
theorem test_jumpIfNotZero :
    view (exec (.jumpIfNotZero 2) ((demo []).setPc 3)) (fun t => t.pc) = some 2 ∧
      view (exec (.jumpIfNotZero 4294967295) (((demo []).setPc 3).setFlags (zncv true false false false)))
        (fun t => (t.status, t.pc)) = some (.running, 4) := by decide

/-- J10. -/
theorem test_jumpIfNotZero_fault :
    view (exec (.jumpIfNotZero 4294967295) ((demo []).setPc 3)) (fun t => (t.errKind, t.errPc)) =
      some (some .jumpTargetOutOfRange, 3) := by decide

/-- LS3: the address is read before the write. -/
theorem test_load_into_address_register :
    view (exec (.load 1 1) ((demo [(1, 0x200)]).setMem beefMem)) (fun t => (t.readReg 1, t.last, t.pc)) =
      some (0xDEADBEEF, 1, 1) := by decide +kernel

/-- LS5, LS8, LS9, LS11. -/
theorem test_load_faults :
    view (exec (.load 3 1) (demo [(1, 0x102)])) (fun t => t.errKind) = some (some .unalignedMemoryAccess) ∧
      view (exec (.load 3 1) (demo [(1, 0xFFFFFFFC)])) (fun t => t.errKind) = some (some .memoryOutOfBounds) ∧
      view (exec (.load 3 1) { demo [(1, 0x200)] with memPresent := false }) (fun t => t.errKind) =
        some (some .memoryNotAttached) ∧
      view (exec (.load 32 1) { demo [] with memPresent := false }) (fun t => t.errKind) =
        some (some .registerOutOfRange) := by decide +kernel

/-- LS1: the least significant byte at the lowest address. -/
theorem test_store :
    view (exec (.store 2 1) (demo [(1, 0x200), (2, 0xDEADBEEF)])) (fun t => (t.mem.cells, t.lastValid, t.pc)) =
      some ([(0x200, 0xEF), (0x201, 0xBE), (0x202, 0xAD), (0x203, 0xDE)], false, 1) := by decide +kernel

/-- LS6, LS10, LS12. -/
theorem test_store_faults :
    view (exec (.store 2 1) (demo [(1, 0x10000), (2, 1)])) (fun t => (t.errKind, t.mem.cells)) =
        some (some .memoryOutOfBounds, []) ∧
      view (exec (.store 2 1) { demo [(1, 0x102)] with memPresent := false }) (fun t => t.errKind) =
        some (some .memoryNotAttached) ∧
      view (exec (.store 2 (-1)) (demo [])) (fun t => t.errKind) = some (some .registerOutOfRange) := by decide +kernel

/-! ## The memory controller -/

/-- M8 and M16, with the word below and the word above left alone. -/
theorem test_memory_words :
    ((State.reset.mem.clear.putWord 0xFFFC 0x01020304).readWord 0xFFFC).toOption = some 0x01020304 ∧
      (State.reset.mem.clear.putWord 0x100 0xAABBCCDD).cells =
        [(0x100, 0xDD), (0x101, 0xCC), (0x102, 0xBB), (0x103, 0xAA)] ∧
      ((State.reset.mem.clear.putWord 0x100 0xAABBCCDD).readWord 0xFC).toOption = some 0 ∧
      ((State.reset.mem.clear.putWord 0x100 0xAABBCCDD).readWord 0x104).toOption = some 0 := by decide +kernel

/-- M14: a later write replaces all four bytes, and zeros leave no entry. -/
theorem test_memory_overwrite : (beefMem.putWord 0x200 1).cells = [(0x200, 1)] := by decide +kernel

/-- M3, M5, M7, M9 and M12. -/
theorem test_memory_checks :
    checkAddr 0x102 = some .alignment ∧ checkAddr 0x10000 = some .bounds ∧ checkAddr 0xFFFFFFFC = some .bounds ∧
      checkAddr 0xFFFD = some .alignment ∧ checkAddr 0xFFFFFFFF = some .alignment := by decide

/-! ## Steps and the host -/

/-- F1: the program of that one word, placed from the power-up state. -/
theorem test_step_register_fault :
    view (step (State.reset.withFetchWord 128 0x0000000000000000_00000000_00_00_20_01))
      (fun t => (t.status, t.errKindPort, t.errPc, t.steps)) = some (.faulted, 1, 0, 1) := by decide

/-- E1's word, placed from the power-up state, is the first instruction that runs. -/
theorem test_withFetchWord_from_reset :
    view (step (State.reset.withFetchWord 128 0x0000000000000003_00000000_00_00_01_00))
      (fun t => (t.readReg 1, t.pc, t.steps, t.status)) = some (3, 1, 1, .running) := by decide

/-- F10: no other field is looked at. -/
theorem test_step_unknown_opcode :
    view (step (run1 0xFFFFFFFFFFFFFFFF_FFFFFFFF_FF_FF_FF_0B)) (fun t => (t.status, t.errKindPort, t.errPc, t.steps)) =
      some (.faulted, 9, 0, 1) := by decide

/-- SL1's last step: the dispatch counter passes its limit before the instruction runs. -/
theorem test_step_limit :
    view (step { run1 0x6#128 with steps := 1000000 }) (fun t => (t.status, t.errKindPort, t.steps)) =
      some (.faulted, 7, 1000001) := by decide

/-- SL2's last step: the halt is tested before the counter. -/
theorem test_halt_at_limit :
    view (step { demo [] with steps := 1000000, pc := 7, lastValid := true }) (fun t => (t.status, t.steps, t.resultValid)) =
      some (.halted, 1000000, true) := by decide

/-- P4's result: the last-written word, sign-extended. -/
theorem test_halt_result :
    view (step { demo [(3, 0xDEADBEEF)] with pc := 7, last := 3, lastValid := true }) (fun t => t.result) =
      some 0xFFFFFFFFDEADBEEF := by decide

/-- F12. -/
theorem test_start_empty :
    (State.reset.start [] true).status = .faulted ∧ (State.reset.start [] true).errKindPort = 8 ∧
      (State.reset.start [] true).errPc = 0 ∧ (State.reset.start [] true).steps = 0 := by decide

/-! ## Witnesses: each statement's hypotheses, clause by clause, at boundary values -/

/-- A bad index on either side of 0..31, and the four bounds. -/
theorem witness_bad_register : BadReg (-1) ∧ BadReg 32 ∧ BadReg (-128) ∧ BadReg 127 ∧ ¬ BadReg 0 ∧ ¬ BadReg 31 := by
  decide

/-- For the encoding clause of each of the eleven instructions, a word with its opcode byte and every other bit set. -/
theorem witness_encoding_clauses :
    (0xFFFFFFFFFFFFFFFFFFFFFFFFFFFFFF00#128).extractLsb' 0 8 = 0 ∧
      (0xFFFFFFFFFFFFFFFFFFFFFFFFFFFFFF01#128).extractLsb' 0 8 = 1 ∧
      (0xFFFFFFFFFFFFFFFFFFFFFFFFFFFFFF02#128).extractLsb' 0 8 = 2 ∧
      (0xFFFFFFFFFFFFFFFFFFFFFFFFFFFFFF03#128).extractLsb' 0 8 = 3 ∧
      (0xFFFFFFFFFFFFFFFFFFFFFFFFFFFFFF04#128).extractLsb' 0 8 = 4 ∧
      (0xFFFFFFFFFFFFFFFFFFFFFFFFFFFFFF05#128).extractLsb' 0 8 = 5 ∧
      (0xFFFFFFFFFFFFFFFFFFFFFFFFFFFFFF06#128).extractLsb' 0 8 = 6 ∧
      (0xFFFFFFFFFFFFFFFFFFFFFFFFFFFFFF07#128).extractLsb' 0 8 = 7 ∧
      (0xFFFFFFFFFFFFFFFFFFFFFFFFFFFFFF08#128).extractLsb' 0 8 = 8 ∧
      (0xFFFFFFFFFFFFFFFFFFFFFFFFFFFFFF09#128).extractLsb' 0 8 = 9 ∧
      (0xFFFFFFFFFFFFFFFFFFFFFFFFFFFFFF0A#128).extractLsb' 0 8 = 10 := by decide

theorem witness_AluDivideResultAndFlags : (1 : Word) ≠ 0 := by decide

theorem witness_AluZeroNegativeCommon :
    (¬ (AluOp.divide = .divide ∧ (1 : Word) = 0)) ∧ ¬ (AluOp.add = .divide ∧ (0 : Word) = 0) := by decide

theorem witness_LoadConstCompletesOrFaults : BadReg (-1) ∧ BadReg 32 := by decide

theorem witness_AddCompletesOrFaults :
    ((3 : Word) = (demo [(1, 3), (2, 5)]).readReg 1 ∧ (5 : Word) = (demo [(1, 3), (2, 5)]).readReg 2 ∧
      (8 : Word) = BitVec.ofNat 32 ((3 : Word).toNat + (5 : Word).toNat)) ∧
      (BadReg 32 ∨ BadReg 0) ∧ (BadReg 0 ∨ BadReg (-1)) := by decide

theorem witness_SubtractCompletesOrFaults :
    ((3 : Word) = (demo [(0, 3), (31, 5)]).readReg 0 ∧ (5 : Word) = (demo [(0, 3), (31, 5)]).readReg 31 ∧
      (0xFFFFFFFE : Word) = BitVec.ofNat 32 (2 ^ 32 + (3 : Word).toNat - (5 : Word).toNat)) ∧
      (BadReg 32 ∨ BadReg 0) ∧ (BadReg 0 ∨ BadReg (-1)) := by decide

theorem witness_MultiplyCompletesOrFaults :
    (0x2A : Word) = BitVec.ofNat 32
      (((demo [(3, 6), (4, 7)]).readReg 3).toNat * ((demo [(3, 6), (4, 7)]).readReg 4).toNat) ∧
      (BadReg 32 ∨ BadReg 0) ∧ (BadReg 0 ∨ BadReg (-1)) := by decide

theorem witness_DivideCompletesOrFaults :
    ((demo [(31, 0x64), (30, 1)]).readReg 30 ≠ 0 ∧
      (0x64 : Word) = BitVec.ofNat 32
        (((demo [(31, 0x64), (30, 1)]).readReg 31).toNat / ((demo [(31, 0x64), (30, 1)]).readReg 30).toNat)) ∧
      (demo []).readReg 31 = 0 ∧ (BadReg 32 ∨ BadReg 0) ∧ (BadReg 0 ∨ BadReg (-1)) := by decide

theorem witness_CompareCompletesOrFaults :
    ((3 : Word) = (demo [(1, 3), (2, 3)]).readReg 1 ∧ (3 : Word) = (demo [(1, 3), (2, 3)]).readReg 2 ∧
      (0 : Word) = BitVec.ofNat 32 (2 ^ 32 + (3 : Word).toNat - (3 : Word).toNat)) ∧
      (BadReg 32 ∨ BadReg 0) ∧ (BadReg 0 ∨ BadReg (-1)) := by decide

/-- Targets 0 and `plen` = 7 complete, 8 faults. -/
theorem witness_JumpCompletesOrFaults : 0 ≤ (demo []).plen ∧ 7 ≤ (demo []).plen ∧ (demo []).plen < 8 := by decide

theorem witness_JumpIfZeroCompletesOrFaults :
    (((demo []).setFlags (zncv true false false false)).flags.z = true ∧
      7 ≤ ((demo []).setFlags (zncv true false false false)).plen) ∧
      (demo []).flags.z = false ∧
      (((demo []).setFlags (zncv true false false false)).flags.z = true ∧
        ((demo []).setFlags (zncv true false false false)).plen < 8) := by decide

theorem witness_JumpIfNotZeroCompletesOrFaults :
    ((demo []).flags.z = false ∧ 7 ≤ (demo []).plen) ∧
      ((demo []).setFlags (zncv true false false false)).flags.z = true ∧
      ((demo []).flags.z = false ∧ (demo []).plen < 8) := by decide

/-- Addresses 0 and 65532 complete; 65536 and FFFFFFFC are out of bounds; 1 and 65533 are unaligned. -/
theorem witness_LoadCompletesOrFaults :
    (0 = ((demo []).readReg 1).toNat ∧ (demo []).memPresent = true ∧ 0 % 4 = 0 ∧ 0 ≤ 65532) ∧
      (65532 = ((demo [(1, 65532)]).readReg 1).toNat ∧ (demo [(1, 65532)]).memPresent = true ∧ 65532 % 4 = 0) ∧
      ((demo [(1, 65536)]).memPresent = true ∧ ((demo [(1, 65536)]).readReg 1).toNat % 4 = 0 ∧
        65532 < ((demo [(1, 65536)]).readReg 1).toNat) ∧
      (((demo [(1, 0xFFFFFFFC)]).readReg 1).toNat % 4 = 0 ∧ 65532 < ((demo [(1, 0xFFFFFFFC)]).readReg 1).toNat) ∧
      ((demo [(1, 1)]).readReg 1).toNat % 4 ≠ 0 ∧ ((demo [(1, 65533)]).readReg 1).toNat % 4 ≠ 0 ∧
      State.reset.memPresent = false ∧ (BadReg 32 ∨ BadReg 0) ∧ (BadReg 0 ∨ BadReg (-1)) := by decide

/-- The addresses of Load's witness, and a canonical memory that is not empty. -/
theorem witness_StoreCompletesOrFaults :
    (((demo [(1, 65532)]).setMem beefMem).mem.wf = true ∧ 65532 = (((demo [(1, 65532)]).setMem beefMem).readReg 1).toNat ∧
      ((demo [(1, 65532)]).setMem beefMem).memPresent = true ∧ 65532 % 4 = 0 ∧ 65532 ≤ 65532) ∧
      ((demo [(1, 65536)]).memPresent = true ∧ ((demo [(1, 65536)]).readReg 1).toNat % 4 = 0 ∧
        65532 < ((demo [(1, 65536)]).readReg 1).toNat) ∧
      ((demo [(1, 65533)]).memPresent = true ∧ ((demo [(1, 65533)]).readReg 1).toNat % 4 ≠ 0) ∧
      State.reset.memPresent = false ∧ (BadReg 32 ∨ BadReg 0) ∧ (BadReg 0 ∨ BadReg (-1)) := by decide +kernel

theorem witness_RegistersOutsideDestinationUnchanged :
    ∃ t, exec (.add 1 2) (demo [(2, 5)]) = .next t ∧ destField (.add 1 2) ≠ some (((2 : RegIdx) : Nat) : Int) :=
  ⟨_, rfl, by decide⟩

theorem witness_FlagsOnlyFromFlagProducers :
    (∃ t, (demo []).status = .running ∧ exec (.loadConst 1 3) (demo []) = .next t ∧ producesFlags (.loadConst 1 3) = false) ∧
      ∃ t, (demo []).status = .running ∧ exec (.divide 6 6) (demo []) = .next t ∧ t.status = .faulted :=
  ⟨⟨_, rfl, rfl, rfl⟩, ⟨_, rfl, rfl, rfl⟩⟩

theorem witness_TrackerFollowsRegisterWriters :
    (∃ t, (demo []).status = .running ∧ exec (.loadConst 31 3) (demo []) = .next t ∧
      destField (.loadConst 31 3) = some 31 ∧ t.status ≠ .faulted) ∧
      (∃ t, exec (.jump 7) (demo []) = .next t ∧ destField (.jump 7) = none) ∧
      ∃ t, exec (.loadConst 32 3) (demo []) = .next t ∧ t.status = .faulted :=
  ⟨⟨_, rfl, rfl, rfl, by decide⟩, ⟨_, rfl, rfl⟩, ⟨_, rfl, rfl⟩⟩

/-- A Store that completes, with the addresses next to its four bytes; one that faults; an instruction that is none. -/
theorem witness_MemoryOutsideStoreUnchanged :
    (∃ t, (demo [(1, 0x200)]).status = .running ∧ exec (.store 2 ((1 : RegIdx) : Nat)) (demo [(1, 0x200)]) = .next t ∧
      t.status = .running ∧ 0x1FF < ((demo [(1, 0x200)]).readReg 1).toNat ∧
      ((demo [(1, 0x200)]).readReg 1).toNat + 4 ≤ 0x204) ∧
      (∃ t, exec (.store 2 1) (demo [(1, 0x102)]) = .next t ∧ t.status = .faulted) ∧
      ((∀ src areg : Int, Instr.jump 7 ≠ .store src areg) ∧ ∃ t, exec (.jump 7) (demo []) = .next t) :=
  ⟨⟨_, rfl, rfl, rfl, by decide, by decide⟩, ⟨_, rfl, rfl⟩, ⟨by simp, ⟨_, rfl⟩⟩⟩

theorem witness_ControlRegistersChangeOnlyByFault :
    (∃ t, exec (.loadConst 0 3) (demo []) = .next t ∧ t.status = .running) ∧
      ∃ t, exec (.loadConst 32 3) (demo []) = .next t ∧ t.status = .faulted := ⟨⟨_, rfl, rfl⟩, ⟨_, rfl, rfl⟩⟩

theorem witness_ProgramCounterRule :
    (∃ t, (demo []).status = .running ∧ exec (.jump 8) (demo []) = .next t ∧ t.status = .faulted) ∧
      (∃ t, exec (.jumpIfZero 8) (demo []) = .next t ∧ t.status ≠ .faulted ∧
        jumpTaken (demo []).flags.z (.jumpIfZero 8) = false) ∧
      ∃ t, exec (.jump 7) (demo []) = .next t ∧ t.status ≠ .faulted ∧ jumpTaken (demo []).flags.z (.jump 7) = true :=
  ⟨⟨_, rfl, rfl, rfl⟩, ⟨_, rfl, by decide, rfl⟩, ⟨_, rfl, by decide, rfl⟩⟩

theorem witness_RegisterOutOfRangeExactly :
    (∃ f ∈ usedRegFields (.add 0 32), BadReg f) ∧
      ((demo []).errKind = none ∧ (∀ f ∈ usedRegFields (.load 0 31), ¬ BadReg f) ∧
        ∃ t, exec (.load 0 31) (demo []) = .next t) := ⟨by decide, rfl, by decide, ⟨_, rfl⟩⟩

theorem witness_FaultTableComplete :
    (demo []).errKind = none ∧ ∃ t, exec (.divide 0 0) (demo []) = .next t ∧ t.errKind = some .divisionByZero :=
  ⟨rfl, ⟨_, rfl, rfl⟩⟩

theorem witness_FaultsArePrecise :
    (run1 0x0000000000000000_00000000_00_00_20_01#128).status = .running ∧
      ∃ t, step (run1 0x0000000000000000_00000000_00_00_20_01#128) = .next t ∧ t.status = .faulted := ⟨rfl, ⟨_, rfl, rfl⟩⟩

theorem witness_ErrorCodesOfTheList :
    (demo []).errKind = none ∧ (State.reset.start [] true).errKind = some .emptyProgram := by decide

theorem witness_AddressCheckOrder :
    (65533#32).toNat % 4 ≠ 0 ∧ ((65536#32).toNat % 4 = 0 ∧ 65532 < (65536#32).toNat) ∧
      ((65532#32).toNat % 4 = 0 ∧ (65532#32).toNat ≤ 65532) ∧ ((0#32).toNat % 4 = 0 ∧ (0#32).toNat ≤ 65532) := by decide

theorem witness_LittleEndianWords :
    (∃ w, beefMem.readWord 0x200 = .ok w) ∧ (beefMem.wf = true ∧ ∃ m, beefMem.writeWord 65532 0x01020304 = .ok m) :=
  ⟨⟨_, rfl⟩, by decide +kernel, ⟨_, rfl⟩⟩

theorem witness_WriteWordChangesFourBytes :
    beefMem.wf = true ∧ ((65532#32).toNat % 4 = 0 ∧ (65532#32).toNat ≤ 65532 ∧ 65531 < (65532#32).toNat ∧
      (65532#32).toNat + 4 ≤ 65536) ∧ (65533#32).toNat % 4 ≠ 0 ∧
      ((65536#32).toNat % 4 = 0 ∧ 65532 < (65536#32).toNat) := by decide +kernel

theorem witness_WriteThenReadReturnsWord :
    beefMem.wf = true ∧ (65532#32).toNat % 4 = 0 ∧ (65532#32).toNat ≤ 65532 ∧ (65528#32) ≠ 65532#32 ∧
      (65533#32) ≠ 65532#32 := by decide +kernel

theorem witness_InitializeZeroFills : (65532#32).toNat % 4 = 0 ∧ (65532#32).toNat ≤ 65532 := by decide

/-- The reset state of R140, and a program of each kind. -/
theorem witness_StartResetsCpu :
    (∃ base : State, base =
      { regs := Vector.replicate 32 0, flags := { z := false, n := false, c := false, v := false }, pc := 0, steps := 0
        last := 0, lastValid := false, status := .running, errKind := none, errPc := 0, result := 0
        resultValid := false, prog := [0x6#128], memPresent := true, mem := State.reset.mem }) ∧
      [0x6#128] ≠ ([] : List ProgWord) ∧ ([] : List ProgWord) = [] := ⟨⟨_, rfl⟩, by decide, rfl⟩

/-- The last dispatch the counter admits. -/
theorem witness_StepRunsDecodedInstruction :
    let s := { run1 0x0000000000000003_00000000_00_00_01_00#128 with steps := 999999 }
    s.status = .running ∧ s.pc.toNat ≠ s.plen ∧ (s.steps + 1).toNat ≤ 1000000 ∧
      s.prog[s.pc.toNat]? = some 0x0000000000000003_00000000_00_00_01_00#128 ∧
      decode 0x0000000000000003_00000000_00_00_01_00#128 = .ok (.loadConst 1 3) ∧
      (Instr.loadConst 1 3).wellFormed = true :=
  ⟨rfl, by decide, by decide, rfl, rfl, rfl⟩

theorem witness_NormalHaltReportsLastWritten :
    ((demo []).setPc 7).status = .running ∧ ((demo []).setPc 7).pc.toNat = ((demo []).setPc 7).plen ∧
      ((demo []).setPc 7).lastValid = false ∧ (((demo []).writeReg 3 9).setPc 7).lastValid = true := by decide

theorem witness_StepLimitFaultsBeforeFetch :
    let s := { demo [] with steps := 1000000 }
    s.status = .running ∧ s.pc.toNat < s.plen ∧ 1000000 < (s.steps + 1).toNat := by decide

/-- Opcode bytes 11 and 255. -/
theorem witness_UnknownOpcodeFaultsAtDispatch :
    (run1 0xB#128).status = .running ∧ (run1 0xB#128).pc.toNat < (run1 0xB#128).plen ∧
      ((run1 0xB#128).steps + 1).toNat ≤ 1000000 ∧ (run1 0xB#128).prog[(run1 0xB#128).pc.toNat]? = some 0xB#128 ∧
      11 ≤ ((0xB#128).extractLsb' 0 8).toNat ∧ 11 ≤ ((0xFF#128).extractLsb' 0 8).toNat := by decide

theorem witness_StepDoesNothingUnlessRunning :
    State.reset.status ≠ .running ∧ (demo []).halt.status ≠ .running ∧
      (State.reset.start [] true).status ≠ .running := by decide

theorem witness_StepKeepsProgram : ∃ t, step (run1 0x6#128) = .next t := ⟨_, rfl⟩

theorem witness_ChangedRegisterIsTracked :
    ∃ t, step (run1 0x0000000000000003_00000000_00_00_01_00#128) = .next t ∧
      t.readReg 1 ≠ (run1 0x0000000000000003_00000000_00_00_01_00#128).readReg 1 := ⟨_, rfl, by decide⟩

theorem witness_StepEndsOrCounts :
    (run1 0x6#128).status = .running ∧ ({ run1 0x6#128 with steps := 1000000 }).steps.toNat ≤ 1000000 ∧
      ∃ t, step { run1 0x6#128 with steps := 1000000 } = .next t := ⟨rfl, by decide, ⟨_, rfl⟩⟩

theorem witness_AbsentMemoryIsNeverTouched :
    ({ run1 0x0000000000000000_00000000_01_02_00_0A#128 with memPresent := false }).memPresent = false ∧
      ∃ t, step { run1 0x0000000000000000_00000000_01_02_00_0A#128 with memPresent := false } = .next t :=
  ⟨rfl, ⟨_, rfl⟩⟩

theorem witness_OnlyZeroFlagIsRead :
    (zncv false true true true).z = (run1 0x8#128).flags.z ∧ ∃ t, step (run1 0x8#128) = .next t := ⟨rfl, ⟨_, rfl⟩⟩

theorem witness_StartMeetsInvariant : State.reset.mem.wf = true ∧ [0x6#128].length ≤ 2 ^ 32 - 1 := by decide

/-- A running machine that has the invariant. -/
theorem witness_inv_running : Inv (run1 0x6#128) where
  memory_wf := by decide
  program_fits := by decide
  steps_bounded := by decide
  untracked := by decide
  running := by decide
  halted := by decide
  faulted := by decide

theorem witness_StepKeepsInvariant : Inv (run1 0x6#128) ∧ ∃ t, step (run1 0x6#128) = .next t :=
  ⟨witness_inv_running, ⟨_, rfl⟩⟩

/-- The power-up state has the invariant, and a Start from it is accepted. -/
theorem witness_HostActionsKeepInvariant :
    Inv State.reset ∧ ∃ t, hostAct (.start [0x6#128] true) State.reset = .next (t, .done) where
  left :=
    { memory_wf := by decide
      program_fits := by decide
      steps_bounded := by decide
      untracked := by decide
      running := by decide
      halted := by decide
      faulted := by decide }
  right := ⟨_, rfl⟩

theorem witness_StepAnswersUnderInvariant : Inv (run1 0x6#128) := witness_inv_running

theorem witness_EveryRunEnds : Inv (run1 0x6#128) ∧ (run1 0x6#128).status = .running := ⟨witness_inv_running, rfl⟩

theorem witness_DecodeEncodeAgree :
    (Instr.loadConst (-128) (-9223372036854775808)).wellFormed = true ∧
      (Instr.loadConst 127 9223372036854775807).wellFormed = true ∧ (Instr.jump 4294967295).wellFormed = true ∧
      (Instr.store 0 31).wellFormed = true := by decide

/-- LC11: every unused field is dirty. -/
theorem witness_DecodeReadsOnlyUsedFields :
    decode 0x0000000000000003_FFFFFFFF_7F_80_01_00#128 = .ok (.loadConst 1 3) := rfl

theorem witness_DecodeAcceptsTheElevenOpcodes :
    ((0#128).extractLsb' 0 8).toNat ≤ 10 ∧ ((0xA#128).extractLsb' 0 8).toNat ≤ 10 ∧
      10 < ((0xB#128).extractLsb' 0 8).toNat ∧ 10 < ((0xFF#128).extractLsb' 0 8).toNat := by decide

theorem witness_HostHasNoMoveDuringRun : (demo []).status = .running := by decide

theorem witness_HostMemoryCallsLeaveCpu :
    State.reset.status ≠ .running ∧ (65533#32).toNat % 4 ≠ 0 ∧
      ((65536#32).toNat % 4 = 0 ∧ 65532 < (65536#32).toNat) := by decide

theorem witness_HostReadsOutcome :
    (demo []).halt.status = .halted ∧ (State.reset.start [] true).status = .faulted := by decide

end Sys2Proof.Tests
end

