-- ==== Sys2Proof/Proofs/Invariant.lean ====
section
/-!
The invariant of the machine (Safety.lean's `Inv`) is kept by every update of State, hence by every instruction, every
step and every host action; and every run ends, because a step either ends the run or counts one dispatch.
-/

namespace Sys2Proof

open Sys2Proof.Machine

/-! ### The counter -/

/-- Below the step limit the dispatch counter does not wrap (10_state.md R28). -/
theorem steps_succ_toNat {s : State} (h : s.steps.toNat ≤ 1000000) : (s.steps + 1).toNat = s.steps.toNat + 1 :=
  BitVec.toNat_add_of_lt (by simp only [BitVec.ofNat_eq_ofNat, BitVec.toNat_ofNat]; omega)

/-! ### What each update of State does to the invariant -/

section Updates

variable {s : State}

theorem Inv.setFlags (h : Inv s) (f : Flags) : Inv (s.setFlags f) :=
  ⟨h.memory_wf, h.program_fits, h.steps_bounded, h.untracked, h.running, h.halted, h.faulted⟩

theorem Inv.setMem (h : Inv s) {m : Memory} (hm : m.wf = true) : Inv (s.setMem m) :=
  ⟨hm, h.program_fits, h.steps_bounded, h.untracked, h.running, h.halted, h.faulted⟩

theorem Inv.writeReg (h : Inv s) (hs : s.status = .running) (d : RegIdx) (v : Word) : Inv (s.writeReg d v) where
  memory_wf := h.memory_wf
  program_fits := h.program_fits
  steps_bounded := h.steps_bounded
  untracked := by simp
  running := h.running
  halted := by simp [hs]
  faulted := h.faulted

theorem Inv.setPc (h : Inv s) (hs : s.status = .running) {t : ProgIndex} (ht : t.toNat ≤ s.plen) : Inv (s.setPc t) where
  memory_wf := h.memory_wf
  program_fits := h.program_fits
  steps_bounded := h.steps_bounded
  untracked := h.untracked
  running _ := by
    obtain ⟨hne, -, hrest⟩ := h.running hs
    exact ⟨hne, ht, hrest⟩
  halted := by simp [hs]
  faulted := by simp [hs]

/-- The increment stays inside `0..plen`, because it is made only at an instruction (41_execution_loop.md R146). -/
theorem Inv.advance (h : Inv s) (hs : s.status = .running) (hpc : s.pc.toNat < s.plen) : Inv s.advance := by
  have hfit := h.program_fits
  have hsucc : (s.pc + 1).toNat = s.pc.toNat + 1 :=
    BitVec.toNat_add_of_lt (by simp only [BitVec.ofNat_eq_ofNat, BitVec.toNat_ofNat]; omega)
  exact h.setPc hs (t := s.pc + 1) (by omega)

theorem Inv.countDispatch (h : Inv s) (hs : s.status = .running) (hle : (s.steps + 1).toNat ≤ 1000000) :
    Inv s.countDispatch where
  memory_wf := h.memory_wf
  program_fits := h.program_fits
  steps_bounded := by simp only [State.countDispatch_steps]; omega
  untracked := h.untracked
  running _ := by
    obtain ⟨hne, hpc, -, hrest⟩ := h.running hs
    exact ⟨hne, hpc, hle, hrest⟩
  halted := by simp [hs]
  faulted := by simp [hs]

/-- A fault after the dispatch is counted. This includes the fault of the step limit, where the counted state alone
does not have the invariant. -/
theorem Inv.countDispatch_raise (h : Inv s) (hs : s.status = .running) (k : ErrorKind) :
    Inv (s.countDispatch.raise k s.pc) := by
  obtain ⟨-, -, hsteps, -, -, hres, hval⟩ := h.running hs
  exact
    { memory_wf := h.memory_wf
      program_fits := h.program_fits
      steps_bounded := by
        simp only [State.raise_steps, State.countDispatch_steps, steps_succ_toNat hsteps]
        omega
      untracked := h.untracked
      running := by simp
      halted := by simp
      faulted := fun _ => ⟨by simp, rfl, hres, hval⟩ }

theorem Inv.halt (h : Inv s) (hs : s.status = .running) (hpc : s.pc.toNat = s.plen) : Inv s.halt := by
  obtain ⟨-, -, -, hkind, herr, -, -⟩ := h.running hs
  exact
    { memory_wf := h.memory_wf
      program_fits := h.program_fits
      steps_bounded := h.steps_bounded
      untracked := h.untracked
      running := by simp
      halted := fun _ => ⟨hpc, hkind, herr, rfl, rfl⟩
      faulted := by simp }

end Updates

/-- Start gives the invariant, whatever the CPU held before: a program runs, the empty one faults
(41_execution_loop.md R140, R208). -/
theorem start_inv {s : State} (hm : s.mem.wf = true) {p : List ProgWord} (hp : p.length ≤ 4294967295)
    (present : Bool) : Inv (s.start p present) := by
  unfold State.start
  split
  case isTrue hnil =>
    exact
      { memory_wf := hm
        program_fits := hp
        steps_bounded := by simp
        untracked := by simp
        running := by simp
        halted := by simp
        faulted := by simp }
  case isFalse hne =>
    exact
      { memory_wf := hm
        program_fits := hp
        steps_bounded := by simp
        untracked := by simp
        running := by simp [List.length_pos_iff.2 hne]
        halted := by simp
        faulted := by simp }

/-! ### Every step keeps the invariant -/

/-- An instruction that completes, dispatched inside the program, keeps the invariant. -/
theorem Inv.of_completes {i : Instr} {s t : State} (h : Inv s) (hs : s.status = .running)
    (hpc : s.pc.toNat < s.plen) (hc : Completes i s t) : Inv t := by
  cases hc with
  | register d v _ _ _ _ next =>
    subst next
    exact (h.writeReg hs d v).advance hs hpc
  | registerAndFlags d v f _ _ _ _ next =>
    subst next
    exact ((h.writeReg hs d v).setFlags f).advance hs hpc
  | flags f _ _ _ _ next =>
    subst next
    exact (h.setFlags f).advance hs hpc
  | untaken _ _ _ _ next =>
    subst next
    exact h.advance hs hpc
  | taken g _ _ _ _ _ inRange next =>
    subst next
    exact h.setPc hs ((Nat.mod_le _ _).trans inRange)
  | memory r q m _ _ write next =>
    subst next
    exact (h.setMem (Memory.writeWord_wf h.memory_wf write)).advance hs hpc

/-- A step of a running machine halts, faults, or completes an instruction, and each keeps the invariant. -/
theorem Inv.step_of_running {s t : State} (h : Inv s) (hs : s.status = .running) (hst : step s = .next t) : Inv t := by
  rcases step_next hs hst with ⟨hpc, rfl⟩ | ⟨-, -, rfl⟩ | ⟨hpc, hle, rfl | ⟨i, hi⟩⟩
  · exact h.halt hs hpc
  · exact h.countDispatch_raise hs .stepLimitExceeded
  · exact h.countDispatch_raise hs .unknownOpcode
  · rcases exec_next hi with hc | ⟨k, -, rfl, -⟩
    · exact (h.countDispatch hs hle).of_completes hs hpc hc
    · exact h.countDispatch_raise hs k

/-- Settles O49: outside a run a step changes nothing (R141), in a run `Inv.step_of_running`. -/
theorem stepKeepsInvariant : Obligations.StepKeepsInvariant := by
  unfold Obligations.StepKeepsInvariant
  intro s t h hst
  by_cases hs : s.status = .running
  · exact h.step_of_running hs hst
  · rw [step_of_not_running hs] at hst
    cases hst
    exact h

/-! ### Every run ends -/

theorem takeJump_answers (g : Nat) (s : State) : ∃ t, takeJump g s = .next t := by
  unfold takeJump
  split <;> exact ⟨_, rfl⟩

theorem execArith_answers (op : AluOp) (dst src : Int) (s : State) : ∃ t, execArith op dst src s = .next t := by
  unfold execArith
  split
  · split <;> exact ⟨_, rfl⟩
  · exact ⟨_, rfl⟩

/-- Every instruction answers a next state: its faults are next states too (60_exceptions.md R212). -/
theorem exec_answers (i : Instr) (s : State) : ∃ t, exec i s = .next t := by
  cases i with
  | loadConst dst imm =>
    simp only [exec, execLoadConst]
    split <;> exact ⟨_, rfl⟩
  | add dst src => exact execArith_answers .add dst src s
  | subtract dst src => exact execArith_answers .subtract dst src s
  | multiply dst src => exact execArith_answers .multiply dst src s
  | divide dst src => exact execArith_answers .divide dst src s
  | compare dst src =>
    simp only [exec, execCompare]
    split <;> exact ⟨_, rfl⟩
  | jump g => exact takeJump_answers g s
  | jumpIfZero g =>
    simp only [exec, execJumpIfZero]
    split
    · exact takeJump_answers g s
    · exact ⟨_, rfl⟩
  | jumpIfNotZero g =>
    simp only [exec, execJumpIfNotZero]
    split
    · exact ⟨_, rfl⟩
    · exact takeJump_answers g s
  | load dst areg =>
    simp only [exec, execLoad]
    split
    · split
      · split <;> exact ⟨_, rfl⟩
      · exact ⟨_, rfl⟩
    · exact ⟨_, rfl⟩
  | store src areg =>
    simp only [exec, execStore]
    split
    · split
      · split <;> exact ⟨_, rfl⟩
      · exact ⟨_, rfl⟩
    · exact ⟨_, rfl⟩

/-- While `pc` is at most `plen` there is always a halt, a fault of the loop or an instruction: the model's own fault
fetchOutsideProgram does not occur (41_execution_loop.md R142). -/
theorem step_answers_of_pc_le {s : State} (hs : s.status = .running) (hpc : s.pc.toNat ≤ s.plen) :
    ∃ t, step s = .next t := by
  rcases prologue_cases s with ⟨-, hp⟩ | ⟨-, -, hp⟩ | ⟨hne, -, ⟨hnone, -⟩ | ⟨w, -, ⟨i, -, hp⟩ | ⟨e, -, hp⟩⟩⟩
  · exact ⟨_, step_of_ended hs hp⟩
  · exact ⟨_, step_of_ended hs hp⟩
  · have hout : s.plen ≤ s.pc.toNat := List.getElem?_eq_none_iff.1 hnone
    omega
  · rw [step_of_dispatch hs hp]
    exact exec_answers i _
  · exact ⟨_, step_of_ended hs hp⟩

/-- An instruction that completes leaves `status` and the counter alone. -/
theorem completes_status_steps {i : Instr} {s t : State} (hc : Completes i s t) :
    t.status = s.status ∧ t.steps = s.steps := by
  cases hc <;> (rename_i next; subst next; exact ⟨rfl, rfl⟩)

/-- Progress (41_execution_loop.md R148): a step of a run ends it, or the machine runs on with one more dispatch
counted. -/
theorem step_ends_or_counts {s t : State} (hs : s.status = .running) (hle : s.steps.toNat ≤ 1000000)
    (hst : step s = .next t) : Ended t ∨ (t.status = .running ∧ t.steps.toNat = s.steps.toNat + 1) := by
  rcases step_next hs hst with ⟨-, rfl⟩ | ⟨-, -, rfl⟩ | ⟨-, -, rfl | ⟨i, hi⟩⟩
  · exact .inl (.inl rfl)
  · exact .inl (.inr rfl)
  · exact .inl (.inr rfl)
  · rcases exec_next hi with hc | ⟨k, -, rfl, -⟩
    · obtain ⟨hstatus, hsteps⟩ := completes_status_steps hc
      exact .inr ⟨hstatus.trans hs, by rw [hsteps]; exact steps_succ_toNat hle⟩
    · exact .inl (.inr rfl)

/-- From a running state with the invariant there is a step, to a state with the invariant, and it is progress. -/
theorem Inv.exists_step {s : State} (h : Inv s) (hs : s.status = .running) :
    ∃ t, step s = .next t ∧ Inv t ∧ (Ended t ∨ (t.status = .running ∧ t.steps.toNat = s.steps.toNat + 1)) := by
  obtain ⟨-, hpc, hle, -⟩ := h.running hs
  obtain ⟨t, hst⟩ := step_answers_of_pc_le hs hpc
  exact ⟨t, hst, h.step_of_running hs hst, step_ends_or_counts hs hle hst⟩

/-- A run of `k + 1` steps is one step and a run of `k`. -/
theorem run_succ_of_step {s t : State} (h : step s = .next t) (k : Nat) :
    Host.Core.run core (k + 1) s = Host.Core.run core k t := by
  have hcore : core.step s = .next t := h
  simp only [Host.Core.run, hcore]

/-- With at most `k` dispatches left to the counter, the run ends within `k + 1` steps. -/
theorem run_ends_within {k : Nat} {s : State} (h : Inv s) (hs : s.status = .running)
    (hk : 1000000 ≤ s.steps.toNat + k) :
    ∃ n ≤ k + 1, ∃ t : State, Host.Core.run core n s = .next t ∧ Ended t ∧ Inv t := by
  induction k generalizing s with
  | zero =>
    obtain ⟨t, hst, ht, hend | ⟨hrun, hcount⟩⟩ := h.exists_step hs
    · exact ⟨1, le_rfl, t, run_succ_of_step hst 0, hend, ht⟩
    · obtain ⟨-, -, hle, -⟩ := ht.running hrun
      omega
  | succ k ih =>
    obtain ⟨t, hst, ht, hend | ⟨hrun, hcount⟩⟩ := h.exists_step hs
    · exact ⟨1, by omega, t, run_succ_of_step hst 0, hend, ht⟩
    · obtain ⟨n, hn, u, hu, hend⟩ := ih ht hrun (by omega)
      exact ⟨n + 1, by omega, u, (run_succ_of_step hst n).trans hu, hend⟩

/-- Settles O52: at most 1,000,000 dispatches are left, and one more step ends the run. -/
theorem everyRunEnds : Obligations.EveryRunEnds := by
  unfold Obligations.EveryRunEnds
  intro s h hs
  obtain ⟨n, hn, ht⟩ := run_ends_within (k := 1000000) h hs (by omega)
  exact ⟨n, by omega, ht⟩

/-! ### The host's actions -/

/-- The host has no move during a run (00_scope.md R18). -/
theorem hostAct_of_running {s : State} (hs : s.status = .running) (act : HostAction) :
    hostAct act s = .refused .hostWhileRunning :=
  if_pos hs

/-- Outside a run an action has its effect. -/
theorem hostAct_of_not_running {s : State} (hs : s.status ≠ .running) (act : HostAction) :
    hostAct act s = hostEffect act s :=
  if_neg hs

/-- What an accepted host action can do: start a program that fits, replace the memory by a cleared one or by one a word
was written to, or leave the state as it is. -/
theorem hostEffect_next {act : HostAction} {s t : State} {reply : HostReply}
    (h : hostEffect act s = .next (t, reply)) :
    (∃ p present, act = .start p present ∧ p.length ≤ 4294967295 ∧ t = s.start p present) ∨
      (act = .clearMemory ∧ t = s.setMem s.mem.clear) ∨
      (∃ addr v m, act = .writeWord addr v ∧ s.mem.writeWord addr v = .ok m ∧ t = s.setMem m) ∨
      t = s := by
  cases act with
  | start p present =>
    simp only [hostEffect] at h
    split at h
    · cases h
    · rename_i hfit
      cases h
      exact .inl ⟨p, present, rfl, Nat.le_of_not_lt hfit, rfl⟩
  | clearMemory =>
    cases h
    exact .inr (.inl ⟨rfl, rfl⟩)
  | readWord addr =>
    simp only [hostEffect] at h
    split at h <;> (cases h; exact .inr (.inr (.inr rfl)))
  | writeWord addr v =>
    simp only [hostEffect] at h
    split at h
    · rename_i m hm
      cases h
      exact .inr (.inr (.inl ⟨addr, v, m, rfl, hm, rfl⟩))
    · cases h
      exact .inr (.inr (.inr rfl))
  | readOutcome =>
    cases h
    exact .inr (.inr (.inr rfl))

/-- Settles O50: during a run no action is accepted; outside one, by the cases of `hostEffect_next`. -/
theorem hostActionsKeepInvariant : Obligations.HostActionsKeepInvariant := by
  unfold Obligations.HostActionsKeepInvariant
  intro act s t reply h hact
  by_cases hs : s.status = .running
  · rw [hostAct_of_running hs] at hact
    cases hact
  · rw [hostAct_of_not_running hs] at hact
    rcases hostEffect_next hact with ⟨p, present, -, hp, rfl⟩ | ⟨-, rfl⟩ | ⟨addr, v, m, -, hm, rfl⟩ | rfl
    · exact start_inv h.memory_wf hp present
    · exact h.setMem s.mem.clear_wf
    · exact h.setMem (Memory.writeWord_wf h.memory_wf hm)
    · exact h

/-- Settles O57. -/
theorem hostHasNoMoveDuringRun : Obligations.HostHasNoMoveDuringRun := by
  unfold Obligations.HostHasNoMoveDuringRun
  intro act s hs
  exact hostAct_of_running hs act

end Sys2Proof
end

section
/-!
The frames of an instruction and of a step (10_state.md): what the two outcomes of an instruction, `Completes` and
`Faults` of Laws/Instr.lean, leave unchanged, field by field; and that no instruction reads the flags N, C and V.
-/

namespace Sys2Proof.Machine

/-! ### What a completed instruction does to each part of the state -/

/-- The registers of the run that an instruction does not write: the sampled inputs, the dispatch counter and the
reported result (10_state.md R28, R33, R35, R36). -/
structure SameRun (s t : State) : Prop where
  prog : t.prog = s.prog
  memPresent : t.memPresent = s.memPresent
  steps : t.steps = s.steps
  result : t.result = s.result
  resultValid : t.resultValid = s.resultValid

section Frames

variable {i : Instr} {s t : State}

/-- A completed instruction writes no register but its destination (10_state.md R22). -/
theorem Completes.readReg_of_not_dest (hc : Completes i s t) {r : RegIdx}
    (hr : destField i ≠ some ((r : Nat) : Int)) : t.readReg r = s.readReg r := by
  have write_other {d : RegIdx} (v : Word) (dest : destField i = some ((d : Nat) : Int)) :
      (s.writeReg d v).readReg r = s.readReg r :=
    s.writeReg_readReg_ne d r v (fun hrd => hr (hrd ▸ dest))
  cases hc with
  | register d v dest _ _ _ next => subst next; exact write_other v dest
  | registerAndFlags d v f dest _ _ _ next => subst next; exact write_other v dest
  | flags f _ _ _ _ next => subst next; rfl
  | untaken _ _ _ _ next => subst next; rfl
  | taken g _ _ _ _ _ _ next => subst next; rfl
  | memory p q m _ _ _ next => subst next; rfl

/-- A completed instruction that produces no flags leaves them (10_state.md R27). -/
theorem Completes.flags_of_not_producer (hc : Completes i s t) (hi : producesFlags i = false) :
    t.flags = s.flags := by
  cases hc with
  | register d v _ _ _ _ next => subst next; rfl
  | registerAndFlags d v f _ flags _ _ next => simp [flags] at hi
  | flags f _ flags _ _ next => simp [flags] at hi
  | untaken _ _ _ _ next => subst next; rfl
  | taken g _ _ _ _ _ _ next => subst next; rfl
  | memory p q m _ _ _ next => subst next; rfl

/-- A completed instruction with a destination tracks it (10_state.md R30). -/
theorem Completes.tracker_of_dest (hc : Completes i s t) {dst : Int} (hi : destField i = some dst) :
    ((t.last : Nat) : Int) = dst ∧ t.lastValid = true := by
  cases hc with
  | register d v dest _ _ _ next =>
    subst next
    exact ⟨Option.some.inj (dest.symm.trans hi), rfl⟩
  | registerAndFlags d v f dest _ _ _ next =>
    subst next
    exact ⟨Option.some.inj (dest.symm.trans hi), rfl⟩
  | flags f noDest _ _ _ next => simp [noDest] at hi
  | untaken noDest _ _ _ next => simp [noDest] at hi
  | taken g noDest _ _ _ _ _ next => simp [noDest] at hi
  | memory p q m store _ _ next => simp [store, destField] at hi

/-- A completed instruction without a destination leaves the tracker (10_state.md R30). -/
theorem Completes.tracker_of_no_dest (hc : Completes i s t) (hi : destField i = none) :
    t.last = s.last ∧ t.lastValid = s.lastValid := by
  cases hc with
  | register d v dest _ _ _ next => simp [dest] at hi
  | registerAndFlags d v f dest _ _ _ next => simp [dest] at hi
  | flags f _ _ _ _ next => subst next; exact ⟨rfl, rfl⟩
  | untaken _ _ _ _ next => subst next; exact ⟨rfl, rfl⟩
  | taken g _ _ _ _ _ _ next => subst next; exact ⟨rfl, rfl⟩
  | memory p q m _ _ _ next => subst next; exact ⟨rfl, rfl⟩

/-- A completed instruction that does not jump goes on to the next one (41_execution_loop.md R146). -/
theorem Completes.pc_of_not_taken (hc : Completes i s t) (hi : jumpTaken s.flags.z i = false) :
    t.pc = s.pc + 1 := by
  cases hc with
  | register d v _ _ _ _ next => subst next; rfl
  | registerAndFlags d v f _ _ _ _ next => subst next; rfl
  | flags f _ _ _ _ next => subst next; rfl
  | untaken _ _ _ _ next => subst next; rfl
  | taken g _ _ jump _ _ _ next => simp [jump] at hi
  | memory p q m _ _ _ next => subst next; rfl

/-- A completed jump that is taken goes to its target, which is in range (10_state.md R25). -/
theorem Completes.pc_of_taken (hc : Completes i s t) (hi : jumpTaken s.flags.z i = true) :
    ∃ g : Nat, jumpTarget i = some g ∧ g ≤ s.plen ∧ t.pc = BitVec.ofNat 32 g := by
  cases hc with
  | register d v _ _ noJump _ next => simp [noJump] at hi
  | registerAndFlags d v f _ _ noJump _ next => simp [noJump] at hi
  | flags f _ _ noJump _ next => simp [noJump] at hi
  | untaken _ _ noJump _ next => simp [noJump] at hi
  | taken g _ _ _ _ target inRange next => subst next; exact ⟨g, target, inRange, rfl⟩
  | memory p q m store _ _ next => simp [store, jumpTaken] at hi

theorem Completes.sameRun (hc : Completes i s t) : SameRun s t := by
  cases hc <;> (rename_i next; subst next; exact ⟨rfl, rfl, rfl, rfl, rfl⟩)

/-- Only a fault writes the status and the error registers (60_exceptions.md R212). -/
theorem Completes.sameError (hc : Completes i s t) :
    t.status = s.status ∧ t.errKind = s.errKind ∧ t.errPc = s.errPc := by
  cases hc <;> (rename_i next; subst next; exact ⟨rfl, rfl, rfl⟩)

theorem sameRun_raise (s : State) (k : ErrorKind) (p : ProgIndex) : SameRun s (s.raise k p) :=
  ⟨rfl, rfl, rfl, rfl, rfl⟩

theorem exec_sameRun (h : exec i s = .next t) : SameRun s t := by
  rcases exec_next h with hc | ⟨k, -, rfl, -⟩
  · exact hc.sameRun
  · exact sameRun_raise s k s.pc

/-- In a run the status after an instruction tells its completion from its fault. -/
theorem exec_next_of_running (hs : s.status = .running) (h : exec i s = .next t) :
    (t.status ≠ .faulted ∧ Completes i s t) ∨ (t.status = .faulted ∧ ∃ k, t = s.raise k s.pc) := by
  rcases exec_next h with hc | ⟨k, -, rfl, -⟩
  · obtain ⟨hstatus, -, -⟩ := hc.sameError
    exact .inl ⟨by simp [hstatus, hs], hc⟩
  · exact .inr ⟨rfl, k, rfl⟩

end Frames

/-! ### N, C and V are not read -/

/-- Where the first run answers a state, the second answers one that differs from it at most in N, C and V. -/
def AgreeUpToNCV (o o' : Outcome) : Prop :=
  ∀ t : State, o = .next t → ∃ g : Flags, g.z = t.flags.z ∧ o' = .next (t.setFlags g)

theorem agreeUpToNCV_next {t : State} {g : Flags} (hg : g.z = t.flags.z) :
    AgreeUpToNCV (.next t) (.next (t.setFlags g)) := by
  intro u hu
  cases hu
  exact ⟨g, hg, rfl⟩

section Noninterference

variable {s : State} {f : Flags}

theorem faultAtPc_agree (hf : f.z = s.flags.z) (k : ErrorKind) :
    AgreeUpToNCV (faultAtPc k s) (faultAtPc k (s.setFlags f)) :=
  agreeUpToNCV_next (t := s.raise k s.pc) hf

theorem advance_agree (hf : f.z = s.flags.z) : AgreeUpToNCV (.next s.advance) (.next (s.setFlags f).advance) :=
  agreeUpToNCV_next (t := s.advance) hf

theorem takeJump_of_le {g : Nat} (hg : g ≤ s.plen) : takeJump g s = .next (s.setPc (BitVec.ofNat 32 g)) :=
  if_pos hg

theorem takeJump_of_not_le {g : Nat} (hg : ¬ g ≤ s.plen) : takeJump g s = faultAtPc .jumpTargetOutOfRange s :=
  if_neg hg

theorem takeJump_agree (hf : f.z = s.flags.z) (g : Nat) :
    AgreeUpToNCV (takeJump g s) (takeJump g (s.setFlags f)) := by
  by_cases hg : g ≤ s.plen
  · rw [takeJump_of_le hg, takeJump_of_le (s := s.setFlags f) hg]
    exact agreeUpToNCV_next (t := s.setPc (BitVec.ofNat 32 g)) hf
  · rw [takeJump_of_not_le hg, takeJump_of_not_le (s := s.setFlags f) hg]
    exact faultAtPc_agree hf _

theorem execLoadConst_agree (hf : f.z = s.flags.z) (dst imm : Int) :
    AgreeUpToNCV (execLoadConst dst imm s) (execLoadConst dst imm (s.setFlags f)) := by
  unfold execLoadConst
  cases regIndex dst with
  | none => exact faultAtPc_agree hf _
  | some d => exact agreeUpToNCV_next (t := (s.writeReg d (trunc32 imm)).advance) hf

/-- The four arithmetic instructions read registers alone, and replace all four flags when they complete. -/
theorem execArith_agree (hf : f.z = s.flags.z) (op : AluOp) (dst src : Int) :
    AgreeUpToNCV (execArith op dst src s) (execArith op dst src (s.setFlags f)) := by
  unfold execArith
  cases regIndex dst with
  | none => exact faultAtPc_agree hf _
  | some d =>
    cases regIndex src with
    | none => exact faultAtPc_agree hf _
    | some r =>
      by_cases hz : op = .divide ∧ s.readReg r = 0
      · have hz' : op = .divide ∧ (s.setFlags f).readReg r = 0 := hz
        simp only [dif_pos hz, dif_pos hz']
        exact faultAtPc_agree hf _
      · have hz' : ¬ (op = .divide ∧ (s.setFlags f).readReg r = 0) := hz
        simp only [dif_neg hz, dif_neg hz']
        exact agreeUpToNCV_next (t := ((s.writeReg d _).setFlags (alu op _ _ hz).f).advance) rfl

theorem execCompare_agree (hf : f.z = s.flags.z) (dst src : Int) :
    AgreeUpToNCV (execCompare dst src s) (execCompare dst src (s.setFlags f)) := by
  unfold execCompare
  cases regIndex dst with
  | none => exact faultAtPc_agree hf _
  | some d =>
    cases regIndex src with
    | none => exact faultAtPc_agree hf _
    | some r =>
      exact agreeUpToNCV_next (t := (s.setFlags (aluSubtract (s.readReg d) (s.readReg r)).f).advance) rfl

theorem execLoad_agree (hf : f.z = s.flags.z) (dst areg : Int) :
    AgreeUpToNCV (execLoad dst areg s) (execLoad dst areg (s.setFlags f)) := by
  unfold execLoad
  cases regIndex dst with
  | none => exact faultAtPc_agree hf _
  | some d =>
    cases regIndex areg with
    | none => exact faultAtPc_agree hf _
    | some a =>
      by_cases hp : s.memPresent = true
      · have hp' : (s.setFlags f).memPresent = true := hp
        simp only [if_pos hp, if_pos hp', State.setFlags_mem, State.setFlags_readReg]
        cases s.mem.readWord (s.readReg a) with
        | error e => exact faultAtPc_agree hf _
        | ok v => exact agreeUpToNCV_next (t := (s.writeReg d v).advance) hf
      · have hp' : ¬ (s.setFlags f).memPresent = true := hp
        simp only [if_neg hp, if_neg hp']
        exact faultAtPc_agree hf _

theorem execStore_agree (hf : f.z = s.flags.z) (src areg : Int) :
    AgreeUpToNCV (execStore src areg s) (execStore src areg (s.setFlags f)) := by
  unfold execStore
  cases regIndex src with
  | none => exact faultAtPc_agree hf _
  | some r =>
    cases regIndex areg with
    | none => exact faultAtPc_agree hf _
    | some a =>
      by_cases hp : s.memPresent = true
      · have hp' : (s.setFlags f).memPresent = true := hp
        simp only [if_pos hp, if_pos hp', State.setFlags_mem, State.setFlags_readReg]
        cases s.mem.writeWord (s.readReg a) (s.readReg r) with
        | error e => exact faultAtPc_agree hf _
        | ok m => exact agreeUpToNCV_next (t := (s.setMem m).advance) hf
      · have hp' : ¬ (s.setFlags f).memPresent = true := hp
        simp only [if_neg hp, if_neg hp']
        exact faultAtPc_agree hf _

/-- Every instruction does the same with other N, C and V: the conditional jumps test Z, and nothing else reads a
flag. -/
theorem exec_agree (hf : f.z = s.flags.z) (i : Instr) : AgreeUpToNCV (exec i s) (exec i (s.setFlags f)) := by
  cases i with
  | loadConst dst imm => exact execLoadConst_agree hf dst imm
  | add dst src => exact execArith_agree hf .add dst src
  | subtract dst src => exact execArith_agree hf .subtract dst src
  | multiply dst src => exact execArith_agree hf .multiply dst src
  | divide dst src => exact execArith_agree hf .divide dst src
  | compare dst src => exact execCompare_agree hf dst src
  | jump g => exact takeJump_agree hf g
  | jumpIfZero g =>
    simp only [exec, execJumpIfZero, State.setFlags_flags, hf]
    split
    · exact takeJump_agree hf g
    · exact advance_agree hf
  | jumpIfNotZero g =>
    simp only [exec, execJumpIfNotZero, State.setFlags_flags, hf]
    split
    · exact advance_agree hf
    · exact takeJump_agree hf g
  | load dst areg => exact execLoad_agree hf dst areg
  | store src areg => exact execStore_agree hf src areg

end Noninterference

/-- What the tests before dispatch decide, with the flags replaced. -/
def Prologue.setFlags (f : Flags) : Prologue → Prologue
  | .ended t => .ended (t.setFlags f)
  | .dispatch i t => .dispatch i (t.setFlags f)
  | .outside => .outside

theorem fetchDecode_setFlags (s : State) (f : Flags) : fetchDecode (s.setFlags f) = (fetchDecode s).setFlags f := by
  unfold fetchDecode
  simp only [State.setFlags_prog, State.setFlags_pc]
  cases s.prog[s.pc.toNat]? with
  | none => rfl
  | some w =>
    cases hd : decode w with
    | ok i => simp only [hd]; rfl
    | error e => simp only [hd]; rfl

/-! The three tests before dispatch, one equation each (41_execution_loop.md R141). -/

theorem prologue_at_plen {s : State} (hpc : s.pc.toNat = s.plen) : prologue s = .ended s.halt :=
  if_pos hpc

theorem prologue_at_limit {s : State} (hpc : s.pc.toNat ≠ s.plen)
    (hst : s.countDispatch.steps.toNat > Config.stepLimit) :
    prologue s = .ended (s.countDispatch.raise .stepLimitExceeded s.pc) :=
  (if_neg hpc).trans (if_pos hst)

theorem prologue_of_fetch {s : State} (hpc : s.pc.toNat ≠ s.plen)
    (hst : ¬ s.countDispatch.steps.toNat > Config.stepLimit) : prologue s = fetchDecode s.countDispatch :=
  (if_neg hpc).trans (if_neg hst)

/-- The tests before dispatch read no flag. -/
theorem prologue_setFlags (s : State) (f : Flags) : prologue (s.setFlags f) = (prologue s).setFlags f := by
  by_cases hpc : s.pc.toNat = s.plen
  · rw [prologue_at_plen hpc, prologue_at_plen (s := s.setFlags f) hpc]
    rfl
  · by_cases hst : s.countDispatch.steps.toNat > Config.stepLimit
    · rw [prologue_at_limit hpc hst, prologue_at_limit (s := s.setFlags f) hpc hst]
      rfl
    · rw [prologue_of_fetch hpc hst, prologue_of_fetch (s := s.setFlags f) hpc hst]
      exact fetchDecode_setFlags s.countDispatch f

/-- The tests before dispatch write no flag, whether the run ends there or goes on. -/
theorem prologue_keeps_flags (s : State) :
    prologue s = .outside ∨ ∃ t : State, t.flags = s.flags ∧ (prologue s = .ended t ∨ ∃ i, prologue s = .dispatch i t) := by
  rcases prologue_cases s with ⟨-, hp⟩ | ⟨-, -, hp⟩ | ⟨-, -, ⟨-, hp⟩ | ⟨w, -, ⟨i, -, hp⟩ | ⟨e, -, hp⟩⟩⟩
  · exact .inr ⟨s.halt, rfl, .inl hp⟩
  · exact .inr ⟨s.countDispatch.raise .stepLimitExceeded s.pc, rfl, .inl hp⟩
  · exact .inl hp
  · exact .inr ⟨s.countDispatch, rfl, .inr ⟨i, hp⟩⟩
  · exact .inr ⟨s.countDispatch.raise .unknownOpcode s.pc, rfl, .inl hp⟩

/-- A step does the same with other N, C and V (10_state.md R27). -/
theorem step_agree {s : State} {f : Flags} (hf : f.z = s.flags.z) :
    AgreeUpToNCV (step s) (step (s.setFlags f)) := by
  by_cases hs : s.status = .running
  · have hs' : (s.setFlags f).status = .running := hs
    rcases prologue_keeps_flags s with hp | ⟨t, ht, hp | ⟨i, hp⟩⟩
    · rw [step_of_outside hs hp]
      exact fun t ht => nomatch ht
    · have hp' : prologue (s.setFlags f) = .ended (t.setFlags f) := by rw [prologue_setFlags, hp]; rfl
      rw [step_of_ended hs hp, step_of_ended hs' hp']
      exact agreeUpToNCV_next (t := t) (hf.trans (congrArg Flags.z ht.symm))
    · have hp' : prologue (s.setFlags f) = .dispatch i (t.setFlags f) := by rw [prologue_setFlags, hp]; rfl
      rw [step_of_dispatch hs hp, step_of_dispatch hs' hp']
      exact exec_agree (hf.trans (congrArg Flags.z ht.symm)) i
  · rw [step_of_not_running hs, step_of_not_running (s := s.setFlags f) hs]
    exact agreeUpToNCV_next hf

end Sys2Proof.Machine

namespace Sys2Proof

open Sys2Proof.Machine

/-- Settles O21: a completion writes its destination alone, a fault writes no register. -/
theorem registersOutsideDestinationUnchanged : Obligations.RegistersOutsideDestinationUnchanged := by
  unfold Obligations.RegistersOutsideDestinationUnchanged
  intro i s t h r hr
  rcases exec_next h with hc | ⟨k, -, rfl, -⟩
  · exact hc.readReg_of_not_dest hr
  · rfl

/-- Settles O22: the status says whether the instruction completed, and a fault writes no flag. -/
theorem flagsOnlyFromFlagProducers : Obligations.FlagsOnlyFromFlagProducers := by
  unfold Obligations.FlagsOnlyFromFlagProducers
  intro i s t hs h hor
  rcases exec_next_of_running hs h with ⟨hnf, hc⟩ | ⟨-, k, rfl⟩
  · exact hc.flags_of_not_producer (hor.resolve_right hnf)
  · rfl

/-- Start resets the tracker (10_state.md R30, decision D12). -/
theorem start_tracker (s : State) (p : List ProgWord) (present : Bool) :
    (s.start p present).last = 0 ∧ (s.start p present).lastValid = false := by
  unfold State.start
  split <;> exact ⟨rfl, rfl⟩

/-- Settles O23: by the status, a completion tracks its destination and a fault tracks nothing; then Start. -/
theorem trackerFollowsRegisterWriters : Obligations.TrackerFollowsRegisterWriters := by
  unfold Obligations.TrackerFollowsRegisterWriters
  refine ⟨fun i s t hs h => ?_, start_tracker⟩
  rcases exec_next_of_running hs h with ⟨hnf, hc⟩ | ⟨hfault, k, rfl⟩
  · exact ⟨fun dst hdst _ => hc.tracker_of_dest hdst, fun hor => hc.tracker_of_no_dest (hor.resolve_right hnf)⟩
  · exact ⟨fun _ _ hnf => absurd hfault hnf, fun _ => ⟨rfl, rfl⟩⟩

/-- Settles O25: `SameRun` for every outcome; the error registers by the two outcomes. -/
theorem controlRegistersChangeOnlyByFault : Obligations.ControlRegistersChangeOnlyByFault := by
  unfold Obligations.ControlRegistersChangeOnlyByFault
  intro i s t h
  obtain ⟨hprog, hpresent, hsteps, hresult, hvalid⟩ := exec_sameRun h
  refine ⟨hprog, hpresent, hsteps, hresult, hvalid, ?_⟩
  rcases exec_next h with hc | ⟨k, hk, rfl, -⟩
  · exact .inl hc.sameError
  · exact .inr ⟨k, hk, rfl⟩

/-- Settles O26: a fault leaves pc; a completion moves it as `jumpTaken` says. -/
theorem programCounterRule : Obligations.ProgramCounterRule := by
  unfold Obligations.ProgramCounterRule
  intro i s t hs h
  rcases exec_next_of_running hs h with ⟨hnf, hc⟩ | ⟨hfault, k, rfl⟩
  · exact ⟨fun hfault => absurd hfault hnf, fun _ => hc.pc_of_not_taken, fun _ => hc.pc_of_taken⟩
  · exact ⟨fun _ => rfl, fun hnf => absurd hfault hnf, fun hnf => absurd hfault hnf⟩

/-- Settles O42: neither the halt, the counter, a fault nor an instruction writes the sampled inputs. -/
theorem stepKeepsProgram : Obligations.StepKeepsProgram := by
  unfold Obligations.StepKeepsProgram
  intro s t hst
  by_cases hs : s.status = .running
  · rcases step_next hs hst with ⟨-, rfl⟩ | ⟨-, -, rfl⟩ | ⟨-, -, rfl | ⟨i, hi⟩⟩
    · exact ⟨rfl, rfl⟩
    · exact ⟨rfl, rfl⟩
    · exact ⟨rfl, rfl⟩
    · exact ⟨(exec_sameRun hi).prog, (exec_sameRun hi).memPresent⟩
  · rw [step_of_not_running hs] at hst
    cases hst
    exact ⟨rfl, rfl⟩

/-- Settles O46, by `step_agree`. -/
theorem onlyZeroFlagIsRead : Obligations.OnlyZeroFlagIsRead := by
  unfold Obligations.OnlyZeroFlagIsRead
  intro s t f hf hst
  exact step_agree hf t hst

/-- Settles O48. -/
theorem startMeetsInvariant : Obligations.StartMeetsInvariant := by
  unfold Obligations.StartMeetsInvariant
  intro s p present hm hp
  exact start_inv hm hp present

/-- Settles O47: no run has begun, so only the parts that hold in every status have content. -/
theorem powerUpMeetsInvariant : Obligations.PowerUpMeetsInvariant := by
  unfold Obligations.PowerUpMeetsInvariant
  exact
    { memory_wf := rfl
      program_fits := Nat.zero_le _
      steps_bounded := Nat.zero_le _
      untracked := fun _ => ⟨rfl, State.reset_readReg⟩
      running := nofun
      halted := nofun
      faulted := nofun }

end Sys2Proof
end

section
/-!
The data memory (20_memory.md): what the address check, ReadWord and WriteWord answer at each address; the bytes a Store
leaves unchanged; and that a step with no memory attached does the same whatever memory stands in the state.
-/

namespace Sys2Proof.Machine

/-! ### The address check, and what a word access answers by it -/

section Access

variable {m : Memory} {addr v : Word}

theorem checkAddr_of_unaligned (h : addr.toNat % 4 ≠ 0) : checkAddr addr = some .alignment :=
  if_pos h

theorem checkAddr_of_beyond (ha : addr.toNat % 4 = 0) (hb : 65532 < addr.toNat) : checkAddr addr = some .bounds :=
  (if_neg (not_not.2 ha)).trans (if_pos hb)

/-- The two word operations answer the error of the check. -/
theorem Memory.access_of_check_error {e : MemError} (h : checkAddr addr = some e) :
    m.readWord addr = .error e ∧ m.writeWord addr v = .error e := by
  simp only [Memory.readWord, Memory.writeWord, h, and_self]

theorem Memory.readWord_of_valid (ha : addr.toNat % 4 = 0) (hb : addr.toNat ≤ 65532) :
    m.readWord addr = .ok (wordOfBytes (m.readByte addr.toNat) (m.readByte (addr.toNat + 1))
      (m.readByte (addr.toNat + 2)) (m.readByte (addr.toNat + 3))) := by
  simp only [Memory.readWord, checkAddr_eq_none.2 ⟨ha, hb⟩]

theorem Memory.writeWord_of_valid (ha : addr.toNat % 4 = 0) (hb : addr.toNat ≤ 65532) :
    m.writeWord addr v = .ok (m.putWord addr.toNat v) := by
  simp only [Memory.writeWord, checkAddr_eq_none.2 ⟨ha, hb⟩]

/-- A word read that succeeds assembles the four bytes at its address. -/
theorem Memory.readWord_ok {w : Word} (h : m.readWord addr = .ok w) :
    w = wordOfBytes (m.readByte addr.toNat) (m.readByte (addr.toNat + 1)) (m.readByte (addr.toNat + 2))
      (m.readByte (addr.toNat + 3)) := by
  cases hc : checkAddr addr with
  | some e =>
    rw [(access_of_check_error (v := w) hc).1] at h
    cases h
  | none =>
    obtain ⟨ha, hb⟩ := checkAddr_eq_none.1 hc
    rw [readWord_of_valid ha hb] at h
    exact (Except.ok.inj h).symm

end Access

/-! ### The bytes of a word -/

theorem toNat_append_byte {n : Nat} (x : BitVec n) (b : Byte) : (x ++ b).toNat = 2 ^ 8 * x.toNat + b.toNat := by
  rw [BitVec.toNat_append, ← Nat.shiftLeft_add_eq_or_of_lt b.isLt, Nat.shiftLeft_eq, Nat.mul_comm]

/-- The value of a little-endian word: each next byte weighs 2^8 times more (20_memory.md R51). -/
theorem wordOfBytes_toNat (b0 b1 b2 b3 : Byte) :
    (wordOfBytes b0 b1 b2 b3).toNat =
      b0.toNat + 2 ^ 8 * b1.toNat + 2 ^ 16 * b2.toNat + 2 ^ 24 * b3.toNat := by
  unfold wordOfBytes
  rw [toNat_append_byte, toNat_append_byte, toNat_append_byte]
  omega

/-! ### Reading after a write -/

section ReadAfterWrite

variable {m : Memory} {addr : Word}

theorem Memory.readWord_putWord_same (hm : m.wf = true) (ha : addr.toNat % 4 = 0) (hb : addr.toNat ≤ 65532)
    (v : Word) : (m.putWord addr.toNat v).readWord addr = .ok v := by
  have hbyte {i : Nat} (hi : i < 4) := readByte_putWord_at hm (a := addr.toNat) (by omega) v hi
  have hbyte0 : (m.putWord addr.toNat v).readByte addr.toNat = byteOfWord v 0 := hbyte (i := 0) (by omega)
  rw [readWord_of_valid ha hb, hbyte0, hbyte (by omega), hbyte (by omega), hbyte (by omega), wordOfBytes_byteOfWord]

/-- Another address answers as before: it is refused as before, or its word is aligned and so apart from the one
written. -/
theorem Memory.readWord_putWord_ne (ha : addr.toNat % 4 = 0) {addr' : Word} (hne : addr' ≠ addr) (v : Word) :
    (m.putWord addr.toNat v).readWord addr' = m.readWord addr' := by
  cases hc : checkAddr addr' with
  | some e => rw [(access_of_check_error (v := v) hc).1, (access_of_check_error (v := v) hc).1]
  | none =>
    obtain ⟨ha', hb'⟩ := checkAddr_eq_none.1 hc
    have hne' : addr'.toNat ≠ addr.toNat := fun h => hne (BitVec.eq_of_toNat_eq h)
    have hbyte {i : Nat} (hi : i < 4) :
        (m.putWord addr.toNat v).readByte (addr'.toNat + i) = m.readByte (addr'.toNat + i) :=
      m.readByte_putWord_ne v (by omega)
    have hbyte0 : (m.putWord addr.toNat v).readByte addr'.toNat = m.readByte addr'.toNat :=
      hbyte (i := 0) (by omega)
    rw [readWord_of_valid ha' hb', readWord_of_valid ha' hb', hbyte0, hbyte (by omega), hbyte (by omega),
      hbyte (by omega)]

end ReadAfterWrite

/-! ### What an instruction leaves of the memory -/

section Frames

variable {i : Instr} {s t : State}

theorem Completes.mem_of_not_store (hc : Completes i s t) (hi : ∀ src areg : Int, i ≠ .store src areg) :
    t.mem = s.mem := by
  cases hc with
  | register d v _ _ _ _ next => subst next; rfl
  | registerAndFlags d v f _ _ _ _ next => subst next; rfl
  | flags f _ _ _ _ next => subst next; rfl
  | untaken _ _ _ _ next => subst next; rfl
  | taken g _ _ _ _ _ _ next => subst next; rfl
  | memory r q m store _ _ _ => exact absurd store (hi _ _)

/-- A completed Store changes the four bytes from the address in its address register on, and no other. -/
theorem Completes.readByte_of_store {src : Int} {q : RegIdx} (hc : Completes (.store src (q : Nat)) s t) {a : Nat}
    (ha : a < (s.readReg q).toNat ∨ (s.readReg q).toNat + 4 ≤ a) : t.mem.readByte a = s.mem.readByte a := by
  cases hc with
  | register d v _ _ _ noStore _ => exact absurd rfl (noStore _ _)
  | registerAndFlags d v f _ _ _ noStore _ => exact absurd rfl (noStore _ _)
  | flags f _ _ _ noStore _ => exact absurd rfl (noStore _ _)
  | untaken _ _ _ noStore _ => exact absurd rfl (noStore _ _)
  | taken g _ _ _ noStore _ _ _ => exact absurd rfl (noStore _ _)
  | memory r q' m store _ write next =>
    obtain ⟨-, hq⟩ := Instr.store.inj store
    obtain rfl : q = q' := Fin.ext (Int.ofNat.inj hq)
    obtain ⟨-, -, rfl⟩ := Memory.writeWord_ok write
    subst next
    exact s.mem.readByte_putWord_ne _ ha

end Frames

/-! ### With no memory attached the memory is not read -/

/-- An outcome with the memory of its next state replaced. -/
def withMem (m : Memory) : Outcome → Outcome
  | .next t => .next (t.setMem m)
  | .fault r => .fault r
  | .refused r => .refused r

/-- What the tests before dispatch decide, with the memory replaced. -/
def Prologue.setMem (m : Memory) : Prologue → Prologue
  | .ended t => .ended (t.setMem m)
  | .dispatch i t => .dispatch i (t.setMem m)
  | .outside => .outside

section Noninterference

variable {s : State} (m : Memory)

theorem takeJump_setMem (g : Nat) : takeJump g (s.setMem m) = withMem m (takeJump g s) := by
  unfold takeJump
  rw [apply_ite (withMem m)]
  rfl

theorem execLoadConst_setMem (dst imm : Int) :
    execLoadConst dst imm (s.setMem m) = withMem m (execLoadConst dst imm s) := by
  unfold execLoadConst
  cases regIndex dst with
  | none => rfl
  | some d => rfl

theorem execArith_setMem (op : AluOp) (dst src : Int) :
    execArith op dst src (s.setMem m) = withMem m (execArith op dst src s) := by
  unfold execArith
  cases regIndex dst with
  | none => rfl
  | some d =>
    cases regIndex src with
    | none => rfl
    | some r =>
      simp only [apply_dite (withMem m)]
      rfl

theorem execCompare_setMem (dst src : Int) :
    execCompare dst src (s.setMem m) = withMem m (execCompare dst src s) := by
  unfold execCompare
  cases regIndex dst with
  | none => rfl
  | some d =>
    cases regIndex src with
    | none => rfl
    | some r => rfl

/-- An absent memory stops a Load before its address is looked at (45_loadstore.md R190, decision D16). -/
theorem execLoad_setMem (hp : s.memPresent = false) (dst areg : Int) :
    execLoad dst areg (s.setMem m) = withMem m (execLoad dst areg s) := by
  unfold execLoad
  cases regIndex dst with
  | none => rfl
  | some d =>
    cases regIndex areg with
    | none => rfl
    | some a =>
      simp only [State.setMem_memPresent, hp]
      rfl

/-- An absent memory stops a Store before its address is looked at (45_loadstore.md R191, decision D16). -/
theorem execStore_setMem (hp : s.memPresent = false) (src areg : Int) :
    execStore src areg (s.setMem m) = withMem m (execStore src areg s) := by
  unfold execStore
  cases regIndex src with
  | none => rfl
  | some r =>
    cases regIndex areg with
    | none => rfl
    | some a =>
      simp only [State.setMem_memPresent, hp]
      rfl

/-- With no memory attached every instruction does the same on any other memory, and hands it on. -/
theorem exec_setMem (hp : s.memPresent = false) (i : Instr) : exec i (s.setMem m) = withMem m (exec i s) := by
  cases i with
  | loadConst dst imm => exact execLoadConst_setMem m dst imm
  | add dst src => exact execArith_setMem m .add dst src
  | subtract dst src => exact execArith_setMem m .subtract dst src
  | multiply dst src => exact execArith_setMem m .multiply dst src
  | divide dst src => exact execArith_setMem m .divide dst src
  | compare dst src => exact execCompare_setMem m dst src
  | jump g => exact takeJump_setMem m g
  | jumpIfZero g =>
    simp only [exec, execJumpIfZero, apply_ite (withMem m), State.setMem_flags, takeJump_setMem]
    rfl
  | jumpIfNotZero g =>
    simp only [exec, execJumpIfNotZero, apply_ite (withMem m), State.setMem_flags, takeJump_setMem]
    rfl
  | load dst areg => exact execLoad_setMem m hp dst areg
  | store src areg => exact execStore_setMem m hp src areg

/-- The program is fetched from its own store, never from the data memory (10_state.md R33). -/
theorem fetchDecode_setMem (s : State) : fetchDecode (s.setMem m) = (fetchDecode s).setMem m := by
  unfold fetchDecode
  simp only [State.setMem_prog, State.setMem_pc]
  cases s.prog[s.pc.toNat]? with
  | none => rfl
  | some w =>
    cases hd : decode w with
    | ok i => simp only [hd]; rfl
    | error e => simp only [hd]; rfl

theorem prologue_setMem (s : State) : prologue (s.setMem m) = (prologue s).setMem m := by
  unfold prologue
  rw [apply_ite (Prologue.setMem m), apply_ite (Prologue.setMem m), ← fetchDecode_setMem]
  rfl

/-- The state in which an instruction is dispatched is the one whose counter counts it. -/
theorem prologue_eq_dispatch {i : Instr} {t : State} (h : prologue s = .dispatch i t) : t = s.countDispatch := by
  rcases prologue_cases s with ⟨-, hp⟩ | ⟨-, -, hp⟩ | ⟨-, -, ⟨-, hp⟩ | ⟨w, -, ⟨j, -, hp⟩ | ⟨e, -, hp⟩⟩⟩ <;>
    cases hp.symm.trans h
  rfl

/-- With no memory attached a step does the same on any other memory, and hands it on. -/
theorem step_setMem (hp : s.memPresent = false) : step (s.setMem m) = withMem m (step s) := by
  by_cases hs : s.status = .running
  · have hs' : (s.setMem m).status = .running := hs
    have hpro := prologue_setMem m s
    cases h : prologue s with
    | ended t =>
      rw [step_of_ended hs h, step_of_ended hs' (hpro.trans (congrArg _ h))]
      rfl
    | dispatch i t =>
      rw [step_of_dispatch hs h, step_of_dispatch hs' (hpro.trans (congrArg _ h))]
      obtain rfl := prologue_eq_dispatch h
      exact exec_setMem m (s := s.countDispatch) hp i
    | outside =>
      rw [step_of_outside hs h, step_of_outside hs' (hpro.trans (congrArg _ h))]
      rfl
  · rw [step_of_not_running hs, step_of_not_running (s := s.setMem m) hs]
    rfl

end Noninterference

end Sys2Proof.Machine

namespace Sys2Proof

open Sys2Proof.Machine

/-- Settles O24: a completion changes the memory only by its Store, and a fault does not change it. -/
theorem memoryOutsideStoreUnchanged : Obligations.MemoryOutsideStoreUnchanged := by
  unfold Obligations.MemoryOutsideStoreUnchanged
  intro i s t hs h
  rcases exec_next_of_running hs h with ⟨hnf, hc⟩ | ⟨-, k, rfl⟩
  · refine ⟨fun hor => hc.mem_of_not_store (hor.resolve_right hnf), fun src q hi a ha => ?_⟩
    subst hi
    exact hc.readByte_of_store ha
  · exact ⟨fun _ => rfl, fun _ _ _ _ _ => rfl⟩

/-- Settles O31, by the three answers of the check. -/
theorem addressCheckOrder : Obligations.AddressCheckOrder := by
  unfold Obligations.AddressCheckOrder
  intro m addr v
  exact ⟨fun ha => Memory.access_of_check_error (checkAddr_of_unaligned ha),
    fun ha hb => Memory.access_of_check_error (checkAddr_of_beyond ha hb),
    fun ha hb => ⟨⟨_, Memory.readWord_of_valid ha hb⟩, ⟨_, Memory.writeWord_of_valid ha hb⟩⟩⟩

/-- Settles O32: the value of the four bytes read, and the four bytes written. -/
theorem littleEndianWords : Obligations.LittleEndianWords := by
  unfold Obligations.LittleEndianWords
  refine ⟨fun m addr w h => ?_, fun m m' addr w hm h => ?_⟩
  · rw [Memory.readWord_ok h, wordOfBytes_toNat]
  · obtain ⟨-, hb, rfl⟩ := Memory.writeWord_ok h
    have hbyte {i : Nat} (hi : i < 4) := Memory.readByte_putWord_at hm (a := addr.toNat) (by omega) w hi
    exact ⟨hbyte (i := 0) (by omega), hbyte (i := 1) (by omega), hbyte (i := 2) (by omega),
      hbyte (i := 3) (by omega)⟩

/-- Settles O33: a valid address by the bytes of `putWord`, any other by the check. -/
theorem writeWordChangesFourBytes : Obligations.WriteWordChangesFourBytes := by
  unfold Obligations.WriteWordChangesFourBytes
  intro m addr v hm
  refine ⟨fun ha hb => ⟨_, Memory.writeWord_of_valid ha hb, fun i hi => ?_, fun a hout => ?_⟩,
    fun ha => (Memory.access_of_check_error (checkAddr_of_unaligned ha)).2,
    fun ha hb => (Memory.access_of_check_error (checkAddr_of_beyond ha hb)).2⟩
  · exact Memory.readByte_putWord_at hm (by omega) v hi
  · exact m.readByte_putWord_ne v hout

/-- Settles O34: the write is `putWord`, and reading after it is `readWord_putWord_same` and `readWord_putWord_ne`. -/
theorem writeThenReadReturnsWord : Obligations.WriteThenReadReturnsWord := by
  unfold Obligations.WriteThenReadReturnsWord
  intro m addr v hm ha hb
  exact ⟨_, Memory.writeWord_of_valid ha hb, Memory.readWord_putWord_same hm ha hb v,
    fun _ hne => Memory.readWord_putWord_ne ha hne v⟩

/-- Settles O45. A step that does the same on every memory and hands it on also hands on its own, so the frame is the
case `m = s.mem` of `step_setMem`. -/
theorem absentMemoryIsNeverTouched : Obligations.AbsentMemoryIsNeverTouched := by
  unfold Obligations.AbsentMemoryIsNeverTouched
  intro s t m hp hst
  have hother (m' : Memory) : step (s.setMem m') = .next (t.setMem m') := by rw [step_setMem m' hp, hst]; rfl
  have hown : t = t.setMem s.mem := Host.Outcome.next.inj (hst.symm.trans (hother s.mem))
  have hmem : t.mem = (t.setMem s.mem).mem := congrArg State.mem hown
  exact ⟨hmem, hother m⟩

/-- Settles O35: a cleared memory lists no byte and reads 0 where none is listed. -/
theorem initializeZeroFills : Obligations.InitializeZeroFills := by
  unfold Obligations.InitializeZeroFills
  intro m
  refine ⟨m.clear_readByte, m.clear_wf, fun addr ha hb => ?_⟩
  have hzero : wordOfBytes 0 0 0 0 = 0 := by decide
  simp only [Memory.readWord_of_valid ha hb, Memory.clear_readByte, hzero]

end Sys2Proof
end

section
/-!
Encoding and decoding (30_encoding.md). A word and its record of six fields determine each other (R83, R84), so each
statement about words is carried to records. There, an instruction stands as its own record with zero in the fields its
opcode does not use (R88).
-/

namespace Sys2Proof

/-! ### The fields of a word -/

/-- A field is read back from the place it was put. -/
theorem extractLsb'_placeField_same {lo n : Nat} (h : lo + n ≤ 128) (v : BitVec n) :
    (placeField lo v).extractLsb' lo n = v := by
  unfold placeField
  ext i hi
  have hin : lo + i < 128 := by omega
  simp [BitVec.getElem_extractLsb', hin, hi]

/-- A field beside the one read contributes no bit. -/
theorem extractLsb'_placeField_disjoint {lo n lo' n' : Nat} (h : lo + n ≤ lo' ∨ lo' + n' ≤ lo) (v : BitVec n) :
    (placeField lo v).extractLsb' lo' n' = 0 := by
  unfold placeField
  ext i hi
  have hout : lo' + i < lo ∨ n ≤ lo' + i - lo := by omega
  rcases hout with hbelow | habove
  · simp [BitVec.getElem_extractLsb', hbelow]
  · simp [BitVec.getElem_extractLsb', BitVec.getLsbD_of_ge v _ habove]

/-- A field whose bits the mask keeps is read unchanged. -/
theorem extractLsb'_and_of_kept {lo n : Nat} {m : ProgWord} (h : m.extractLsb' lo n = BitVec.allOnes n) (w : ProgWord) :
    (w &&& m).extractLsb' lo n = w.extractLsb' lo n := by
  rw [BitVec.extractLsb'_and, h, BitVec.and_allOnes]

/-- A field whose bits the mask clears reads 0. -/
theorem extractLsb'_and_of_cleared {lo n : Nat} {m : ProgWord} (h : m.extractLsb' lo n = 0#n) (w : ProgWord) :
    (w &&& m).extractLsb' lo n = 0#n := by
  rw [BitVec.extractLsb'_and, h, BitVec.and_zero]

/-- Words that agree in a field agree in each of its bits. -/
theorem getLsbD_eq_of_extractLsb'_eq {w w' : ProgWord} {lo n i : Nat} (h : w.extractLsb' lo n = w'.extractLsb' lo n)
    (hlo : lo ≤ i) (hhi : i < lo + n) : w.getLsbD i = w'.getLsbD i := by
  have hbit := congrArg (fun v => BitVec.getLsbD v (i - lo)) h
  have hin : i - lo < n := by omega
  simpa [BitVec.getLsbD_extractLsb', hin, Nat.add_sub_cancel' hlo] using hbit

/-! ### Records and words -/

/-- The six fields of the word that `packFields` lays out, whatever the operands are. -/
theorem decodeRecord_packFields (op : BitVec 8) (dst src areg : Int) (target : Nat) (imm : Int) :
    decodeRecord (packFields op dst src areg target imm) =
      { opcode := op
        dst := (BitVec.ofInt 8 dst).toInt
        src := (BitVec.ofInt 8 src).toInt
        areg := (BitVec.ofInt 8 areg).toInt
        target := (BitVec.ofNat 32 target).toNat
        imm := (BitVec.ofInt 64 imm).toInt } := by
  simp (disch := omega) only [decodeRecord, packFields, BitVec.extractLsb'_or, extractLsb'_placeField_same,
    extractLsb'_placeField_disjoint, BitVec.ofNat_eq_ofNat, BitVec.or_zero, BitVec.zero_or]

/-- No bit of a word is outside a field (R83). -/
theorem decodeRecord_injective : Function.Injective decodeRecord := by
  intro w w' h
  obtain ⟨hop, hdst, hsrc, hareg, htarget, himm⟩ := InstrRecord.mk.inj h
  refine BitVec.eq_of_getLsbD_eq fun i hi => ?_
  have hfield : i < 8 ∨ (8 ≤ i ∧ i < 16) ∨ (16 ≤ i ∧ i < 24) ∨ (24 ≤ i ∧ i < 32) ∨ (32 ≤ i ∧ i < 64) ∨ 64 ≤ i := by
    omega
  rcases hfield with hhi | ⟨hlo, hhi⟩ | ⟨hlo, hhi⟩ | ⟨hlo, hhi⟩ | ⟨hlo, hhi⟩ | hlo
  · exact getLsbD_eq_of_extractLsb'_eq hop (Nat.zero_le i) (by omega)
  · exact getLsbD_eq_of_extractLsb'_eq (BitVec.toInt_inj.1 hdst) hlo hhi
  · exact getLsbD_eq_of_extractLsb'_eq (BitVec.toInt_inj.1 hsrc) hlo hhi
  · exact getLsbD_eq_of_extractLsb'_eq (BitVec.toInt_inj.1 hareg) hlo hhi
  · exact getLsbD_eq_of_extractLsb'_eq (BitVec.toNat_inj.1 htarget) hlo hhi
  · exact getLsbD_eq_of_extractLsb'_eq (BitVec.toInt_inj.1 himm) hlo hi

/-- Every field of the record fits its place in the layout. -/
def InstrRecord.fits (r : InstrRecord) : Bool :=
  regFieldOk r.dst && regFieldOk r.src && regFieldOk r.areg && targetFieldOk r.target && immFieldOk r.imm

theorem toInt_ofInt_of_regFieldOk {i : Int} (h : regFieldOk i = true) : (BitVec.ofInt 8 i).toInt = i := by
  simp only [regFieldOk, Bool.and_eq_true, decide_eq_true_eq] at h
  exact BitVec.toInt_ofInt_eq_self (by decide) (by omega) (by omega)

theorem toInt_ofInt_of_immFieldOk {i : Int} (h : immFieldOk i = true) : (BitVec.ofInt 64 i).toInt = i := by
  simp only [immFieldOk, Bool.and_eq_true, decide_eq_true_eq] at h
  exact BitVec.toInt_ofInt_eq_self (by decide) (by omega) (by omega)

theorem toNat_ofNat_of_targetFieldOk {t : Nat} (h : targetFieldOk t = true) : (BitVec.ofNat 32 t).toNat = t :=
  (BitVec.toNat_ofNat t 32).trans (Nat.mod_eq_of_lt (of_decide_eq_true h))

theorem regFieldOk_toInt (v : BitVec 8) : regFieldOk v.toInt = true := by
  have hlo := v.le_toInt
  have hhi := v.toInt_lt
  simp only [regFieldOk, Bool.and_eq_true, decide_eq_true_eq]
  omega

theorem immFieldOk_toInt (v : BitVec 64) : immFieldOk v.toInt = true := by
  have hlo := v.le_toInt
  have hhi := v.toInt_lt
  simp only [immFieldOk, Bool.and_eq_true, decide_eq_true_eq]
  omega

theorem targetFieldOk_toNat (v : BitVec 32) : targetFieldOk v.toNat = true :=
  decide_eq_true v.isLt

/-- What a word decodes to fits the layout (R84: decoding into a record is total). -/
theorem decodeRecord_fits (w : ProgWord) : (decodeRecord w).fits = true := by
  simp only [InstrRecord.fits, decodeRecord, regFieldOk_toInt, targetFieldOk_toNat, immFieldOk_toInt, Bool.and_true]

/-- A record that fits is read back from its word. -/
theorem decodeRecord_pack {r : InstrRecord} (h : r.fits = true) :
    decodeRecord (packFields r.opcode r.dst r.src r.areg r.target r.imm) = r := by
  simp only [InstrRecord.fits, Bool.and_eq_true] at h
  obtain ⟨⟨⟨⟨hdst, hsrc⟩, hareg⟩, htarget⟩, himm⟩ := h
  rw [decodeRecord_packFields, toInt_ofInt_of_regFieldOk hdst, toInt_ofInt_of_regFieldOk hsrc,
    toInt_ofInt_of_regFieldOk hareg, toNat_ofNat_of_targetFieldOk htarget, toInt_ofInt_of_immFieldOk himm]

/-! ### Instructions and records -/

/-- The record of an instruction, with zero in every field its opcode does not use (30_encoding.md R80, R81). -/
def Instr.record (i : Instr) : InstrRecord :=
  match i with
  | .loadConst dst imm => ⟨opcodeOf i, dst, 0, 0, 0, imm⟩
  | .add dst src => ⟨opcodeOf i, dst, src, 0, 0, 0⟩
  | .subtract dst src => ⟨opcodeOf i, dst, src, 0, 0, 0⟩
  | .multiply dst src => ⟨opcodeOf i, dst, src, 0, 0, 0⟩
  | .divide dst src => ⟨opcodeOf i, dst, src, 0, 0, 0⟩
  | .compare dst src => ⟨opcodeOf i, dst, src, 0, 0, 0⟩
  | .jump target => ⟨opcodeOf i, 0, 0, 0, target, 0⟩
  | .jumpIfZero target => ⟨opcodeOf i, 0, 0, 0, target, 0⟩
  | .jumpIfNotZero target => ⟨opcodeOf i, 0, 0, 0, target, 0⟩
  | .load dst areg => ⟨opcodeOf i, dst, 0, areg, 0, 0⟩
  | .store src areg => ⟨opcodeOf i, 0, src, areg, 0, 0⟩

/-- The record with zero in every field that the instruction's opcode does not use (30_encoding.md R81). -/
def InstrRecord.clearUnused (r : InstrRecord) : Instr → InstrRecord
  | .loadConst _ _ => { r with src := 0, areg := 0, target := 0 }
  | .add _ _ => { r with areg := 0, target := 0, imm := 0 }
  | .subtract _ _ => { r with areg := 0, target := 0, imm := 0 }
  | .multiply _ _ => { r with areg := 0, target := 0, imm := 0 }
  | .divide _ _ => { r with areg := 0, target := 0, imm := 0 }
  | .compare _ _ => { r with areg := 0, target := 0, imm := 0 }
  | .jump _ => { r with dst := 0, src := 0, areg := 0, imm := 0 }
  | .jumpIfZero _ => { r with dst := 0, src := 0, areg := 0, imm := 0 }
  | .jumpIfNotZero _ => { r with dst := 0, src := 0, areg := 0, imm := 0 }
  | .load _ _ => { r with src := 0, target := 0, imm := 0 }
  | .store _ _ => { r with dst := 0, target := 0, imm := 0 }

@[simp] theorem Instr.record_opcode (i : Instr) : i.record.opcode = opcodeOf i := by cases i <;> rfl

@[simp] theorem InstrRecord.clearUnused_opcode (r : InstrRecord) (i : Instr) : (r.clearUnused i).opcode = r.opcode := by
  cases i <;> rfl

/-- The encoder packs the instruction's record. -/
theorem encode_eq_packFields (i : Instr) :
    encode i = packFields i.record.opcode i.record.dst i.record.src i.record.areg i.record.target i.record.imm := by
  cases i <;> rfl

/-- An instruction is well-formed when its record fits, because a field it does not use is 0, which fits. -/
theorem Instr.record_fits (i : Instr) : i.record.fits = i.wellFormed := by
  have hreg : regFieldOk 0 = true := by decide
  have htarget : targetFieldOk 0 = true := by decide
  have himm : immFieldOk 0 = true := by decide
  cases i <;> simp [InstrRecord.fits, Instr.record, Instr.wellFormed, hreg, htarget, himm]

/-- The opcode map reads an instruction from its own record. -/
theorem selectInstr_record (i : Instr) : selectInstr i.record = .ok i := by cases i <;> rfl

/-- The opcode map copies the used fields and drops the others (R88). -/
theorem record_of_selectInstr {r : InstrRecord} {i : Instr} (h : selectInstr r = .ok i) :
    i.record = r.clearUnused i := by
  unfold selectInstr at h
  split at h
  case h_12 => cases h
  all_goals
    rename_i hop
    obtain rfl := Except.ok.inj h
    simp [Instr.record, InstrRecord.clearUnused, opcodeOf, BitVec.toNat_eq, hop]

theorem opcodeOf_of_selectInstr {r : InstrRecord} {i : Instr} (h : selectInstr r = .ok i) : opcodeOf i = r.opcode := by
  have hop := congrArg InstrRecord.opcode (record_of_selectInstr h)
  simpa using hop

theorem selectInstr_of_opcode_le {r : InstrRecord} (h : r.opcode.toNat ≤ 10) : ∃ i, selectInstr r = .ok i := by
  unfold selectInstr
  interval_cases r.opcode.toNat <;> exact ⟨_, rfl⟩

theorem selectInstr_of_opcode_gt {r : InstrRecord} (h : 10 < r.opcode.toNat) :
    selectInstr r = .error (.unknownOpcode r.opcode) := by
  unfold selectInstr
  split
  case h_12 => rfl
  all_goals omega

/-- `usedBits` covers whole fields: the used ones and the opcode (R81, R83). -/
theorem decodeRecord_and_usedBits (w : ProgWord) (i : Instr) :
    decodeRecord (w &&& usedBits i) = (decodeRecord w).clearUnused i := by
  cases i <;>
    simp (disch := decide) [decodeRecord, InstrRecord.clearUnused, usedBits, extractLsb'_and_of_kept,
      extractLsb'_and_of_cleared]

/-- The record of an encoded well-formed instruction. -/
theorem decodeRecord_encode {i : Instr} (h : i.wellFormed = true) : decodeRecord (encode i) = i.record := by
  rw [encode_eq_packFields]
  exact decodeRecord_pack (i.record_fits.trans h)

/-! ### The statements -/

/-- Settles O54: the encoded word has the instruction's record, which the opcode map reads as the instruction. -/
theorem decodeEncodeAgree : Obligations.DecodeEncodeAgree := by
  unfold Obligations.DecodeEncodeAgree
  intro i h
  rw [decode, decodeRecord_encode h, selectInstr_record]
  rfl

/-- Settles O55: the instruction's record is that of the masked word, and words with one record are equal. -/
theorem decodeReadsOnlyUsedFields : Obligations.DecodeReadsOnlyUsedFields := by
  unfold Obligations.DecodeReadsOnlyUsedFields
  intro w i h
  have hrec : i.record = decodeRecord (w &&& usedBits i) :=
    (record_of_selectInstr h).trans (decodeRecord_and_usedBits w i).symm
  have hwf : i.wellFormed = true := by rw [← Instr.record_fits, hrec, decodeRecord_fits]
  exact ⟨hwf, decodeRecord_injective ((decodeRecord_encode hwf).trans hrec)⟩

/-- Settles O56, by the two answers of the opcode map. -/
theorem decodeAcceptsTheElevenOpcodes : Obligations.DecodeAcceptsTheElevenOpcodes := by
  unfold Obligations.DecodeAcceptsTheElevenOpcodes
  intro w
  refine ⟨fun hle => ?_, fun hgt => selectInstr_of_opcode_gt (r := decodeRecord w) hgt⟩
  obtain ⟨i, hi⟩ := selectInstr_of_opcode_le (r := decodeRecord w) hle
  exact ⟨i, hi, opcodeOf_of_selectInstr hi⟩

/-- Settles O53, by evaluating the decoder on the six words. -/
theorem encodedExamplesDecode : Obligations.EncodedExamplesDecode := by
  unfold Obligations.EncodedExamplesDecode
  decide

end Sys2Proof
end

section
/-!
The ALU (40_alu.md). Each stage of the ripple adder is tied to the carry chain of its full adders (R111), and that chain
to the carry of exact addition, which gives the closed form (R112). The operations' results and flags are read off there.
-/

namespace Sys2Proof.Machine

/-! ### The chain of full adders -/

section Ripple

variable {a b : Word} {cin : Bool}

/-- The carry `c[n]` into bit position `n` (R111). -/
def rippleCarry (a b : Word) (cin : Bool) (n : Nat) : Bool := (rippleStage a b cin n).2

@[simp] theorem rippleCarry_zero : rippleCarry a b cin 0 = cin := rfl

theorem rippleCarry_succ (n : Nat) :
    rippleCarry a b cin (n + 1) = fullAdderCarry (a.getLsbD n) (b.getLsbD n) (rippleCarry a b cin n) := rfl

theorem rippleStage_succ_sum (n : Nat) :
    (rippleStage a b cin (n + 1)).1 =
      (rippleStage a b cin n).1 ||| (BitVec.setWidth 32 (BitVec.ofBool
        (fullAdderSum (a.getLsbD n) (b.getLsbD n) (rippleCarry a b cin n))) <<< n) := rfl

/-- One bit, placed at position `n` of a word. -/
theorem getLsbD_ofBool_shiftLeft {n : Nat} (hn : n < 32) (x : Bool) (i : Nat) :
    (BitVec.setWidth 32 (BitVec.ofBool x) <<< n).getLsbD i = (decide (i = n) && x) := by
  rcases Nat.lt_trichotomy i n with hlt | rfl | hgt
  · simp [hlt, hlt.ne]
  · simp [hn]
  · have hpos : i - n ≠ 0 := by omega
    simp [hgt.ne', hpos, BitVec.getLsbD_ofBool]

/-- Stage `n` has written the sum bits below `n`, and no other. -/
theorem getLsbD_rippleStage {n : Nat} (hn : n ≤ 32) (i : Nat) :
    (rippleStage a b cin n).1.getLsbD i =
      (decide (i < n) && fullAdderSum (a.getLsbD i) (b.getLsbD i) (rippleCarry a b cin i)) := by
  induction n with
  | zero => simp [rippleStage]
  | succ n ih =>
    rw [rippleStage_succ_sum, BitVec.getLsbD_or, ih (by omega), getLsbD_ofBool_shiftLeft hn]
    rcases Nat.lt_trichotomy i n with hlt | rfl | hgt
    · simp [hlt, hlt.ne, Nat.lt_succ_of_lt hlt]
    · simp
    · simp [hgt.not_gt, hgt.ne', Nat.not_lt.2 (Nat.succ_le_of_lt hgt)]

theorem getLsbD_rippleAdd {i : Nat} (hi : i < 32) :
    (rippleAdd a b cin).1.getLsbD i = fullAdderSum (a.getLsbD i) (b.getLsbD i) (rippleCarry a b cin i) := by
  rw [rippleAdd, getLsbD_rippleStage le_rfl, decide_eq_true hi, Bool.true_and]

theorem rippleAdd_carry : (rippleAdd a b cin).2 = rippleCarry a b cin 32 := rfl

/-! ### The closed form -/

/-- The chain carries exactly when the operands' low bits and the carry-in reach the next power of two. -/
theorem rippleCarry_eq_carry (n : Nat) : rippleCarry a b cin n = BitVec.carry n a b cin := by
  induction n with
  | zero => rw [rippleCarry_zero, BitVec.carry_zero]
  | succ n ih => rw [rippleCarry_succ, BitVec.carry_succ, ih]; rfl

/-- The sum word is the modular sum (R112). -/
theorem rippleAdd_sum : (rippleAdd a b cin).1 = a + b + BitVec.setWidth 32 (BitVec.ofBool cin) := by
  refine BitVec.eq_of_getLsbD_eq fun i hi => ?_
  rw [getLsbD_rippleAdd hi, rippleCarry_eq_carry, BitVec.getLsbD_add_add_bool hi, fullAdderSum, Bool.xor_assoc]

theorem rippleAdd_sum_toNat : (rippleAdd a b cin).1.toNat = (a.toNat + b.toNat + cin.toNat) % 2 ^ 32 := by
  have hcin : (BitVec.setWidth 32 (BitVec.ofBool cin)).toNat = cin.toNat := by cases cin <;> rfl
  rw [rippleAdd_sum, BitVec.toNat_add, BitVec.toNat_add, hcin, Nat.mod_add_mod]

/-- The carry out of bit 31 is the carry of the exact sum (R112). -/
theorem rippleAdd_carry_eq : (rippleAdd a b cin).2 = decide (2 ^ 32 ≤ a.toNat + b.toNat + cin.toNat) := by
  rw [rippleAdd_carry, rippleCarry_eq_carry, BitVec.carry, Nat.mod_eq_of_lt a.isLt, Nat.mod_eq_of_lt b.isLt]

end Ripple

/-! ### The four operations -/

section Operations

variable {a b : Word}

theorem aluAdd_r : (aluAdd a b).r = a + b := by
  have hsum : (aluAdd a b).r = (rippleAdd a b false).1 := rfl
  simp [hsum, rippleAdd_sum]

theorem aluAdd_f :
    (aluAdd a b).f = flagsOf (aluAdd a b).r (rippleAdd a b false).2
      ((sign a == sign b) && (sign (aluAdd a b).r != sign a)) := rfl

/-- The rule by signs is signed overflow (R113). -/
theorem aluAdd_v : (aluAdd a b).f.v = BitVec.saddOverflow a b := by
  rw [aluAdd_f, flagsOf_v, BitVec.saddOverflow_eq, aluAdd_r]
  simp only [BitVec.msb_eq_getLsbD_last]
  rfl

theorem aluSubtract_r : (aluSubtract a b).r = (rippleAdd a (~~~b) true).1 := rfl

theorem aluSubtract_f :
    (aluSubtract a b).f = flagsOf (aluSubtract a b).r (rippleAdd a (~~~b) true).2
      ((sign a != sign b) && (sign (aluSubtract a b).r != sign a)) := rfl

/-- The adder's exact sum for `a - b`: `2^32` above the difference (R114). -/
theorem subtract_operands_sum (a b : Word) :
    ((a.toNat + (~~~b).toNat + true.toNat : Nat) : Int) = (a.toNat - b.toNat) + 2 ^ 32 := by
  have hb := b.isLt
  rw [BitVec.toNat_not, Bool.toNat_true]
  omega

theorem aluSubtract_r_toNat : ((aluSubtract a b).r.toNat : Int) = ((a.toNat : Int) - b.toNat) % 2 ^ 32 := by
  rw [aluSubtract_r, rippleAdd_sum_toNat, Int.natCast_mod, subtract_operands_sum]
  exact Int.add_emod_right _ _

/-- C is the complement of the borrow (R114). -/
theorem aluSubtract_c : (aluSubtract a b).f.c = true ↔ b.toNat ≤ a.toNat := by
  have hsum := subtract_operands_sum a b
  rw [aluSubtract_f, flagsOf_c, rippleAdd_carry_eq, decide_eq_true_eq]
  omega

/-- Z and N come from the result in every operation; C and V are the operation's own (R117). -/
theorem alu_f_eq_flagsOf (op : AluOp) (a b : Word) (h : ¬ (op = .divide ∧ b = 0)) :
    ∃ c v, (alu op a b h).f = flagsOf (alu op a b h).r c v := by
  cases op with
  | add => exact ⟨_, _, aluAdd_f⟩
  | subtract => exact ⟨_, _, aluSubtract_f⟩
  | multiply => exact ⟨false, false, rfl⟩
  | divide => exact ⟨false, false, rfl⟩

end Operations

end Sys2Proof.Machine

namespace Sys2Proof

open Sys2Proof.Machine

/-- Settles O1: the chain is the adder's own carries. -/
theorem rippleAddFollowsCarryChain : Obligations.RippleAddFollowsCarryChain := by
  unfold Obligations.RippleAddFollowsCarryChain
  intro a b cin
  exact ⟨rippleCarry a b cin, rippleCarry_zero, fun i hi => ⟨getLsbD_rippleAdd hi, rippleCarry_succ i⟩, rippleAdd_carry⟩

/-- Settles O2. -/
theorem rippleAddClosedForm : Obligations.RippleAddClosedForm := by
  unfold Obligations.RippleAddClosedForm
  intro a b cin
  exact ⟨rippleAdd_sum_toNat, rippleAdd_carry_eq⟩

/-- Settles O3: C is the adder's carry out; V is the rule by signs, which `aluAdd_v` reads as signed overflow. -/
theorem aluAddResultAndFlags : Obligations.AluAddResultAndFlags := by
  unfold Obligations.AluAddResultAndFlags
  intro a b
  refine ⟨?_, rfl, rfl, ?_, ?_, ?_⟩
  · rw [aluAdd_r, BitVec.toNat_add]
  · rw [aluAdd_f, flagsOf_c, rippleAdd_carry_eq, decide_eq_true_eq, Bool.toNat_false, Nat.add_zero]
  · rw [aluAdd_f, flagsOf_v, Bool.and_eq_true, beq_iff_eq, bne_iff_ne]
  · rw [aluAdd_v, BitVec.saddOverflow, Bool.or_eq_true, decide_eq_true_eq, decide_eq_true_eq]
    exact or_comm

/-- Settles O4: result and C from the adder's exact sum; V is the rule by signs. -/
theorem aluSubtractResultAndFlags : Obligations.AluSubtractResultAndFlags := by
  unfold Obligations.AluSubtractResultAndFlags
  intro a b
  refine ⟨aluSubtract_r_toNat, aluSubtract_r, rfl, rfl, aluSubtract_c, ?_⟩
  rw [aluSubtract_f, flagsOf_v, Bool.and_eq_true, bne_iff_ne, bne_iff_ne]

/-- Settles O5. -/
theorem aluMultiplyResultAndFlags : Obligations.AluMultiplyResultAndFlags := by
  unfold Obligations.AluMultiplyResultAndFlags
  intro a b
  exact ⟨BitVec.toNat_ofNat _ _, rfl⟩

/-- Settles O6: the quotient is at most the dividend, so it fits in a word. -/
theorem aluDivideResultAndFlags : Obligations.AluDivideResultAndFlags := by
  unfold Obligations.AluDivideResultAndFlags
  intro a b h
  have hfits : a.toNat / b.toNat < 2 ^ 32 := (Nat.div_le_self _ _).trans_lt a.isLt
  exact ⟨(BitVec.toNat_ofNat _ _).trans (Nat.mod_eq_of_lt hfits), rfl⟩

/-- Settles O7: by `alu_f_eq_flagsOf`, Z and N are those of `flagsOf`. -/
theorem aluZeroNegativeCommon : Obligations.AluZeroNegativeCommon := by
  unfold Obligations.AluZeroNegativeCommon
  intro op a b h
  obtain ⟨c, v, hf⟩ := alu_f_eq_flagsOf op a b h
  rw [hf]
  exact ⟨flagsOf_z _ c v, flagsOf_n _ c v⟩

end Sys2Proof
end

section
/-!
The execution loop (41_execution_loop.md): Start, the halt and its result, the dispatch of a decoded instruction, and what
a step of a running machine can change, read off its three outcomes: the halt, a fault, a completed instruction.
-/

namespace Sys2Proof.Machine

/-! ### Start -/

theorem start_of_ne_nil {p : List ProgWord} (hp : p ≠ []) (s : State) (present : Bool) :
    s.start p present = s.cpuReset p present :=
  if_neg hp

/-- The empty program is rejected at index 0 (60_exceptions.md R208). -/
theorem start_nil (s : State) (present : Bool) :
    s.start [] present = (s.cpuReset [] present).raise .emptyProgram 0 :=
  if_pos rfl

/-! ### The halt and its result -/

theorem step_at_plen {s : State} (hs : s.status = .running) (hpc : s.pc.toNat = s.plen) : step s = .next s.halt :=
  step_of_ended hs (prologue_at_plen hpc)

theorem halt_result_of_valid {s : State} (h : s.lastValid = true) : s.halt.result = sext64 (s.readReg s.last) :=
  if_pos h

/-- A run that wrote no register reports 0 (decision D12, log entry 14). -/
theorem halt_result_of_not_valid {s : State} (h : s.lastValid = false) : s.halt.result = 0 :=
  if_neg (by simp [h])

/-- Sign extension keeps the signed value. -/
theorem sext64_toInt (w : Word) : (sext64 w).toInt = w.toInt := BitVec.toInt_signExtend_of_le (by decide)

/-- The low half of a sign-extended word is the word. -/
theorem sext64_low (w : Word) : (sext64 w).extractLsb' 0 32 = w := by
  ext i hi
  have hi64 : i < 64 := by omega
  simp [sext64, BitVec.getElem_signExtend, hi, hi64]

/-! ### Dispatch -/

/-- Where the word at `pc` decodes, fetch and decode dispatch what it decodes to (R144). -/
theorem fetchDecode_of_decode_ok {s : State} {w : ProgWord} {i : Instr} (hw : s.prog[s.pc.toNat]? = some w)
    (hd : decode w = .ok i) : fetchDecode s = .dispatch i s := by
  simp only [fetchDecode, hw, hd]

/-- A machine that neither halts nor passes its limit runs the instruction at `pc`, on the counted state (R145). -/
theorem step_of_decode_ok {s : State} {w : ProgWord} {i : Instr} (hs : s.status = .running)
    (hpc : s.pc.toNat ≠ s.plen) (hle : (s.steps + 1).toNat ≤ 1000000) (hw : s.prog[s.pc.toNat]? = some w)
    (hd : decode w = .ok i) : step s = exec i s.countDispatch := by
  have hfetch : prologue s = fetchDecode s.countDispatch := prologue_of_fetch hpc (Nat.not_lt.2 hle)
  have hdispatch : fetchDecode s.countDispatch = .dispatch i s.countDispatch := fetchDecode_of_decode_ok hw hd
  exact step_of_dispatch hs (hfetch.trans hdispatch)

/-! ### The outcomes of a step -/

/-- The outcomes of a step of a running machine, by what they write: every fault, of the loop or of an instruction, is
the same raise on the counted state. -/
theorem step_outcome {s t : State} (hs : s.status = .running) (h : step s = .next t) :
    t = s.halt ∨ (∃ k, t = s.countDispatch.raise k s.pc) ∨ ∃ i, Completes i s.countDispatch t := by
  rcases step_next hs h with ⟨-, rfl⟩ | ⟨-, -, rfl⟩ | ⟨-, -, rfl | ⟨i, hi⟩⟩
  · exact .inl rfl
  · exact .inr (.inl ⟨_, rfl⟩)
  · exact .inr (.inl ⟨_, rfl⟩)
  · rcases exec_next hi with hc | ⟨k, -, rfl, -⟩
    · exact .inr (.inr ⟨i, hc⟩)
    · exact .inr (.inl ⟨k, rfl⟩)

/-- A step that faults is a raise on the counted state, and nothing besides (R150). -/
theorem step_faulted {s t : State} (hs : s.status = .running) (h : step s = .next t) (ht : t.status = .faulted) :
    ∃ k, t = s.countDispatch.raise k s.pc := by
  rcases step_outcome hs h with rfl | hraise | ⟨i, hc⟩
  · cases ht
  · exact hraise
  · obtain ⟨hstatus, -, -⟩ := hc.sameError
    rw [hstatus, State.countDispatch_status, hs] at ht
    cases ht

/-- A completed instruction that changed a register has tracked it: the register was its destination (R149). -/
theorem Completes.tracks_changed {i : Instr} {s t : State} (hc : Completes i s t) {r : RegIdx}
    (hr : t.readReg r ≠ s.readReg r) : t.last = r ∧ t.lastValid = true := by
  have hdest : destField i = some ((r : Nat) : Int) := by
    by_contra hne
    exact hr (hc.readReg_of_not_dest hne)
  obtain ⟨hlast, hvalid⟩ := hc.tracker_of_dest hdest
  exact ⟨Fin.ext (Int.ofNat_inj.1 hlast), hvalid⟩

end Sys2Proof.Machine

namespace Sys2Proof

open Sys2Proof.Machine

/-- Settles O29, by `step_faulted`. -/
theorem faultsArePrecise : Obligations.FaultsArePrecise := by
  unfold Obligations.FaultsArePrecise
  intro s t hs hst ht
  exact step_faulted hs hst ht

/-- Settles O38: the step is the halt, whose result is a sign extension where a register was written. -/
theorem normalHaltReportsLastWritten : Obligations.NormalHaltReportsLastWritten := by
  unfold Obligations.NormalHaltReportsLastWritten
  intro s hs hpc
  refine ⟨s.halt.result, step_at_plen hs hpc, fun hvalid => ?_, halt_result_of_not_valid⟩
  rw [halt_result_of_valid hvalid]
  exact ⟨sext64_toInt _, sext64_low _⟩

/-- Settles O43: of the outcomes of a step only a completed instruction changes a register, and it tracks it. -/
theorem changedRegisterIsTracked : Obligations.ChangedRegisterIsTracked := by
  unfold Obligations.ChangedRegisterIsTracked
  intro s t r hst hr
  by_cases hs : s.status = .running
  · rcases step_outcome hs hst with rfl | ⟨k, rfl⟩ | ⟨i, hc⟩
    · exact absurd (s.halt_readReg r) hr
    · exact absurd rfl hr
    · exact hc.tracks_changed hr
  · rw [step_of_not_running hs] at hst
    cases hst
    exact absurd rfl hr

/-- Settles O44, by `step_ends_or_counts`. -/
theorem stepEndsOrCounts : Obligations.StepEndsOrCounts := by
  unfold Obligations.StepEndsOrCounts
  intro s t hs hle hst
  exact step_ends_or_counts hs hle hst

/-- Settles O51: the invariant keeps `pc` within `plen` during a run, and outside one a step changes nothing. -/
theorem stepAnswersUnderInvariant : Obligations.StepAnswersUnderInvariant := by
  unfold Obligations.StepAnswersUnderInvariant
  intro s h
  by_cases hs : s.status = .running
  · obtain ⟨-, hpc, -⟩ := h.running hs
    exact step_answers_of_pc_le hs hpc
  · exact ⟨s, step_of_not_running hs⟩

/-- Settles O36: the reset state is `cpuReset`'s, and the empty program's fault is raised on it. -/
theorem startResetsCpu : Obligations.StartResetsCpu := by
  unfold Obligations.StartResetsCpu
  rintro s p present base rfl
  refine ⟨fun hne => start_of_ne_nil hne s present, fun hnil => ?_⟩
  subst hnil
  exact start_nil s present

/-- Settles O37; what a word decodes to is well-formed by itself, so that hypothesis is not used. -/
theorem stepRunsDecodedInstruction : Obligations.StepRunsDecodedInstruction := by
  unfold Obligations.StepRunsDecodedInstruction
  intro s w i hs hpc hle hw hd _
  exact step_of_decode_ok hs hpc hle hw hd

/-- Settles O41. -/
theorem stepDoesNothingUnlessRunning : Obligations.StepDoesNothingUnlessRunning := by
  unfold Obligations.StepDoesNothingUnlessRunning
  intro s hs
  exact step_of_not_running hs

/-- Settles O59: after a run the host may act, and what it reads is `State.outcome`, which goes by the status. -/
theorem hostReadsOutcome : Obligations.HostReadsOutcome := by
  unfold Obligations.HostReadsOutcome
  intro s
  have reads (hs : s.status ≠ .running) : hostAct .readOutcome s = .next (s, .outcome s.outcome) :=
    hostAct_of_not_running hs .readOutcome
  constructor
  · intro hs
    rw [reads (by simp [hs]), State.outcome, hs]
  · intro hs
    rw [reads (by simp [hs]), State.outcome, hs]

end Sys2Proof
end

section
/-!
LoadConst (42_loadconst.md): the model's truncation is the residue of R160, a valid index completes and any other faults,
and a word with its opcode byte decodes to it.
-/

namespace Sys2Proof.Machine

/-- The truncated immediate is its residue modulo 2^32 (42_loadconst.md R160). -/
theorem trunc32_eq_ofNat_emod (imm : Int) : trunc32 imm = BitVec.ofNat 32 (imm % 2 ^ 32).toNat := by
  have hlt : (imm % 2 ^ 32).toNat < 2 ^ 32 := by omega
  apply BitVec.eq_of_toNat_eq
  simp only [trunc32, BitVec.toNat_ofInt, BitVec.toNat_ofNat, Nat.cast_pow, Nat.cast_ofNat]
  exact (Nat.mod_eq_of_lt hlt).symm

theorem execLoadConst_of_reg (s : State) (d : RegIdx) (imm : Int) :
    execLoadConst (d : Nat) imm s = .next (s.writeReg d (trunc32 imm)).advance := by
  simp only [execLoadConst, regIndex_val]

theorem execLoadConst_of_badReg {dst : Int} (h : BadReg dst) (imm : Int) (s : State) :
    execLoadConst dst imm s = .next (s.raise .registerOutOfRange s.pc) := by
  simp only [execLoadConst, regIndex_of_bad h, faultAtPc]

end Sys2Proof.Machine

namespace Sys2Proof

open Sys2Proof.Machine

/-- The opcode byte of a word is all that the opcode map tests (30_encoding.md R82); the other fields pass through. -/
theorem decode_of_opcode {w : ProgWord} {op : BitVec 8} (h : w.extractLsb' 0 8 = op) :
    decode w = selectInstr { decodeRecord w with opcode := op } := by
  subst h
  rfl

/-- Settles O9: the two index cases of LoadConst, and its row of the opcode map. -/
theorem loadConstCompletesOrFaults : Obligations.LoadConstCompletesOrFaults := by
  unfold Obligations.LoadConstCompletesOrFaults
  refine ⟨fun s d imm => ?completes, fun s dst imm hbad => ?faults, fun w hop => ?decodes⟩
  case completes =>
    rw [← trunc32_eq_ofNat_emod]
    exact execLoadConst_of_reg s d imm
  case faults => exact execLoadConst_of_badReg hbad imm s
  case decodes => exact decode_of_opcode hop

end Sys2Proof
end

section
/-!
The arithmetic instructions (43_arithmetic.md). Each ALU operation's output is written out once; Add, Subtract, Multiply
and Divide are one operation over the ALU (R170), so completion and faults are proved once for all four, and Compare is
the same over the flags alone.
-/

namespace Sys2Proof.Machine

/-! ### The ALU's outputs, written out -/

section Outputs

variable {a b : Word}

/-- The words' sum is that of their values, as the statements write it (R165). -/
theorem ofNat_toNat_add_toNat (a b : Word) : BitVec.ofNat 32 (a.toNat + b.toNat) = a + b := by
  rw [BitVec.ofNat_add, BitVec.ofNat_toNat, BitVec.ofNat_toNat, BitVec.setWidth_eq, BitVec.setWidth_eq]

/-- The words' difference is that of their values, with `2^32` borrowed (R166). -/
theorem ofNat_toNat_sub_toNat (a b : Word) : BitVec.ofNat 32 (2 ^ 32 + a.toNat - b.toNat) = a - b := by
  rw [BitVec.sub_def, Nat.sub_add_comm b.isLt.le]

/-- Adding the complement with carry-in 1 is subtraction (40_alu.md R114). -/
theorem aluSubtract_r_eq_sub : (aluSubtract a b).r = a - b := by
  rw [aluSubtract_r, rippleAdd_sum, BitVec.sub_eq_add_neg, BitVec.neg_eq_not_add, BitVec.add_assoc]
  rfl

theorem aluAdd_f_eq_flagsOf :
    (aluAdd a b).f = flagsOf (a + b) (decide (2 ^ 32 ≤ a.toNat + b.toNat))
      (decide (sign a = sign b ∧ sign (a + b) ≠ sign a)) := by
  have hv : ((sign a == sign b) && (sign (a + b) != sign a)) = decide (sign a = sign b ∧ sign (a + b) ≠ sign a) := by
    rw [Bool.eq_iff_iff, Bool.and_eq_true, beq_iff_eq, bne_iff_ne, decide_eq_true_eq]
  rw [aluAdd_f, aluAdd_r, rippleAdd_carry_eq, Bool.toNat_false, Nat.add_zero, hv]

theorem aluSubtract_f_eq_flagsOf :
    (aluSubtract a b).f = flagsOf (a - b) (decide (b.toNat ≤ a.toNat))
      (decide (sign a ≠ sign b ∧ sign (a - b) ≠ sign a)) := by
  have hc : (rippleAdd a (~~~b) true).2 = decide (b.toNat ≤ a.toNat) := by
    rw [Bool.eq_iff_iff, decide_eq_true_eq]
    exact aluSubtract_c
  have hv : ((sign a != sign b) && (sign (a - b) != sign a)) = decide (sign a ≠ sign b ∧ sign (a - b) ≠ sign a) := by
    rw [Bool.eq_iff_iff, Bool.and_eq_true, bne_iff_ne, bne_iff_ne, decide_eq_true_eq]
  rw [aluSubtract_f, aluSubtract_r_eq_sub, hc, hv]

/-! ### The order of the operands -/

/-- The rule by signs is signed overflow of the difference (40_alu.md R114). -/
theorem aluSubtract_v : (aluSubtract a b).f.v = BitVec.ssubOverflow a b := by
  have hsign (w : Word) : w.msb = sign w := BitVec.msb_eq_getLsbD_last w
  have hrule : ∀ x y d : Bool, ((x != y) && (d != x)) = (!x && y && d || x && !y && !d) := by decide
  rw [aluSubtract_f, flagsOf_v, BitVec.ssubOverflow_eq, aluSubtract_r_eq_sub, hsign, hsign, hsign, hrule]

/-- A difference that overflows has the wrong sign: it is off by `2^32`. -/
theorem toInt_sub_neg_of_ssubOverflow (h : BitVec.ssubOverflow a b = true) :
    (a - b).toInt < 0 ↔ ¬ a.toInt < b.toInt := by
  have hout : 2 ^ 31 ≤ a.toInt - b.toInt ∨ a.toInt - b.toInt < -2 ^ 31 := by
    simpa only [BitVec.ssubOverflow, Bool.or_eq_true, decide_eq_true_eq] using h
  have ha := And.intro a.le_toInt a.toInt_lt
  have hb := And.intro b.le_toInt b.toInt_lt
  rw [BitVec.toInt_sub, Int.bmod_def]
  split <;> omega

/-- The sign of a difference tells the signed order, except where the difference overflows: there it tells the opposite
(R169). -/
theorem msb_sub_xor_ssubOverflow (a b : Word) :
    ((a - b).msb ^^ BitVec.ssubOverflow a b) = decide (a.toInt < b.toInt) := by
  rw [BitVec.msb_eq_toInt]
  by_cases hov : BitVec.ssubOverflow a b = true
  · rw [hov, Bool.xor_true, decide_eq_decide.2 (toInt_sub_neg_of_ssubOverflow hov), decide_not, Bool.not_not]
  · rw [BitVec.toInt_sub_of_not_ssubOverflow hov, Bool.eq_false_of_not_eq_true hov, Bool.xor_false]
    exact decide_eq_decide.2 sub_neg

end Outputs

/-! ### Completion and faults -/

/-- With both indices valid and a divisor that is not 0, the ALU's result and flags are written (R170). -/
theorem execArith_of_reg {op : AluOp} {s : State} {d r : RegIdx} (hz : ¬ (op = .divide ∧ s.readReg r = 0)) :
    execArith op (d : Nat) (r : Nat) s =
      .next ((s.writeReg d (alu op (s.readReg d) (s.readReg r) hz).r).setFlags
        (alu op (s.readReg d) (s.readReg r) hz).f).advance := by
  simp only [execArith, regIndex_val, dif_neg hz]

/-- The zero divisor is the CPU's own test, and nothing is written before it (R168). -/
theorem execDivide_of_zero {s : State} {d r : RegIdx} (hz : s.readReg r = 0) :
    execDivide (d : Nat) (r : Nat) s = .next (s.raise .divisionByZero s.pc) := by
  simp only [execDivide, execArith, regIndex_val, hz, and_self, dif_pos, faultAtPc]

/-- A bad index faults whatever the operation and the registers hold: the indices are tested first (R170). -/
theorem execArith_of_badReg {dst src : Int} (h : BadReg dst ∨ BadReg src) (op : AluOp) (s : State) :
    execArith op dst src s = .next (s.raise .registerOutOfRange s.pc) := by
  unfold execArith
  rcases h with hdst | hsrc
  · rw [regIndex_of_bad hdst]
    rfl
  · rw [regIndex_of_bad hsrc]
    cases regIndex dst <;> rfl

theorem execCompare_of_reg (s : State) (d r : RegIdx) :
    execCompare (d : Nat) (r : Nat) s = .next (s.setFlags (aluSubtract (s.readReg d) (s.readReg r)).f).advance := by
  simp only [execCompare, regIndex_val]

theorem execCompare_of_badReg {dst src : Int} (h : BadReg dst ∨ BadReg src) (s : State) :
    execCompare dst src s = .next (s.raise .registerOutOfRange s.pc) := by
  unfold execCompare
  rcases h with hdst | hsrc
  · rw [regIndex_of_bad hdst]
    rfl
  · rw [regIndex_of_bad hsrc]
    cases regIndex dst <;> rfl

end Sys2Proof.Machine

namespace Sys2Proof

open Sys2Proof.Machine

/-- Settles O8: Z is equality of the operands because the difference is 0 only then; the signed order is
`msb_sub_xor_ssubOverflow`. -/
theorem subtractFlagsOrderOperands : Obligations.SubtractFlagsOrderOperands := by
  unfold Obligations.SubtractFlagsOrderOperands
  intro a b
  refine ⟨?zero, aluSubtract_c, ?signed⟩
  case zero =>
    rw [aluSubtract_f_eq_flagsOf, flagsOf_z, decide_eq_true_eq]
    exact sub_eq_zero
  case signed =>
    have hn : (aluSubtract a b).f.n = (a - b).msb := by
      rw [aluSubtract_f_eq_flagsOf, flagsOf_n, BitVec.msb_eq_getLsbD_last]
    rw [hn, aluSubtract_v, msb_sub_xor_ssubOverflow, decide_eq_true_eq]

/-- Settles O10: the shared completion with the sum and its flags, the shared index fault, and Add's row of the opcode
map. -/
theorem addCompletesOrFaults : Obligations.AddCompletesOrFaults := by
  unfold Obligations.AddCompletesOrFaults
  refine ⟨?completes, fun s dst src hbad => ?faults, fun w hop => ?decodes⟩
  case completes =>
    rintro s d r a b res rfl rfl rfl
    have hexec := execArith_of_reg (op := .add) (s := s) (d := d) (r := r) (by simp)
    rw [alu_add, aluAdd_r, aluAdd_f_eq_flagsOf] at hexec
    rw [ofNat_toNat_add_toNat]
    exact hexec
  case faults => exact execArith_of_badReg hbad .add s
  case decodes => exact decode_of_opcode hop

/-- Settles O11: as Add, with the difference. -/
theorem subtractCompletesOrFaults : Obligations.SubtractCompletesOrFaults := by
  unfold Obligations.SubtractCompletesOrFaults
  refine ⟨?completes, fun s dst src hbad => ?faults, fun w hop => ?decodes⟩
  case completes =>
    rintro s d r a b res rfl rfl rfl
    have hexec := execArith_of_reg (op := .subtract) (s := s) (d := d) (r := r) (by simp)
    rw [alu_subtract, aluSubtract_r_eq_sub, aluSubtract_f_eq_flagsOf] at hexec
    rw [ofNat_toNat_sub_toNat]
    exact hexec
  case faults => exact execArith_of_badReg hbad .subtract s
  case decodes => exact decode_of_opcode hop

/-- Settles O12: the product and its flags are what `aluMultiply` writes down. -/
theorem multiplyCompletesOrFaults : Obligations.MultiplyCompletesOrFaults := by
  unfold Obligations.MultiplyCompletesOrFaults
  refine ⟨?completes, fun s dst src hbad => ?faults, fun w hop => ?decodes⟩
  case completes =>
    rintro s d r res rfl
    exact execArith_of_reg (op := .multiply) (by simp)
  case faults => exact execArith_of_badReg hbad .multiply s
  case decodes => exact decode_of_opcode hop

/-- Settles O13: the divisor's test divides the valid indices into completion and DivisionByZero; a bad index is found
before it. -/
theorem divideCompletesOrFaults : Obligations.DivideCompletesOrFaults := by
  unfold Obligations.DivideCompletesOrFaults
  refine ⟨?completes, fun s d r hz => ?zeroDivisor, fun s dst src hbad => ?faults, fun w hop => ?decodes⟩
  case completes =>
    rintro s d r res hz rfl
    exact execArith_of_reg (op := .divide) (fun hzero => hz hzero.2)
  case zeroDivisor => exact execDivide_of_zero hz
  case faults => exact execArith_of_badReg hbad .divide s
  case decodes => exact decode_of_opcode hop

/-- Settles O14: the flags of the difference and `pc`, no register and no tracker. -/
theorem compareCompletesOrFaults : Obligations.CompareCompletesOrFaults := by
  unfold Obligations.CompareCompletesOrFaults
  refine ⟨?completes, fun s dst src hbad => ?faults, fun w hop => ?decodes⟩
  case completes =>
    rintro s d r a b res rfl rfl rfl
    have hexec := execCompare_of_reg s d r
    rw [aluSubtract_f_eq_flagsOf] at hexec
    rw [ofNat_toNat_sub_toNat]
    exact hexec
  case faults => exact execCompare_of_badReg hbad s
  case decodes => exact decode_of_opcode hop

end Sys2Proof
end

section
/-!
The jumps (44_control.md). What a taken jump does is proved once (R183); the conditional jumps reduce to it, or to the
increment, by the Zero flag.
-/

namespace Sys2Proof.Machine

section Jumps

variable {s : State}

/-- A target beyond `plen` is the one fault of a taken jump (R183). -/
theorem takeJump_of_plen_lt {g : Nat} (hg : s.plen < g) :
    takeJump g s = .next (s.raise .jumpTargetOutOfRange s.pc) := by
  rw [takeJump_of_not_le (Nat.not_le_of_lt hg), faultAtPc]

theorem execJumpIfZero_of_z (hz : s.flags.z = true) (g : Nat) : execJumpIfZero g s = takeJump g s :=
  if_pos hz

/-- Untaken, JumpIfZero does not examine its target (R181). -/
theorem execJumpIfZero_of_not_z (hz : s.flags.z = false) (g : Nat) : execJumpIfZero g s = .next s.advance :=
  if_neg (ne_true_of_eq_false hz)

/-- Untaken, JumpIfNotZero does not examine its target (R182). -/
theorem execJumpIfNotZero_of_z (hz : s.flags.z = true) (g : Nat) : execJumpIfNotZero g s = .next s.advance :=
  if_pos hz

theorem execJumpIfNotZero_of_not_z (hz : s.flags.z = false) (g : Nat) : execJumpIfNotZero g s = takeJump g s :=
  if_neg (ne_true_of_eq_false hz)

end Jumps

end Sys2Proof.Machine

namespace Sys2Proof

open Sys2Proof.Machine

/-- Settles O15: Jump is the taken jump, divided by whether its target is in range; then its row of the opcode map. -/
theorem jumpCompletesOrFaults : Obligations.JumpCompletesOrFaults := by
  unfold Obligations.JumpCompletesOrFaults
  refine ⟨fun s t hle => ?completes, fun s t hlt => ?faults, fun w hop => ?decodes⟩
  case completes => exact takeJump_of_le hle
  case faults => exact takeJump_of_plen_lt hlt
  case decodes => exact decode_of_opcode hop

/-- Settles O16: the taken jump when Z = 1, the increment when Z = 0. -/
theorem jumpIfZeroCompletesOrFaults : Obligations.JumpIfZeroCompletesOrFaults := by
  unfold Obligations.JumpIfZeroCompletesOrFaults
  refine ⟨fun s t hz hle => ?taken, fun s t hz => ?untaken, fun s t hz hlt => ?faults, fun w hop => ?decodes⟩
  case taken => exact (execJumpIfZero_of_z hz t).trans (takeJump_of_le hle)
  case untaken => exact execJumpIfZero_of_not_z hz t
  case faults => exact (execJumpIfZero_of_z hz t).trans (takeJump_of_plen_lt hlt)
  case decodes => exact decode_of_opcode hop

/-- Settles O17: the taken jump when Z = 0, the increment when Z = 1. -/
theorem jumpIfNotZeroCompletesOrFaults : Obligations.JumpIfNotZeroCompletesOrFaults := by
  unfold Obligations.JumpIfNotZeroCompletesOrFaults
  refine ⟨fun s t hz hle => ?taken, fun s t hz => ?untaken, fun s t hz hlt => ?faults, fun w hop => ?decodes⟩
  case taken => exact (execJumpIfNotZero_of_not_z hz t).trans (takeJump_of_le hle)
  case untaken => exact execJumpIfNotZero_of_z hz t
  case faults => exact (execJumpIfNotZero_of_not_z hz t).trans (takeJump_of_plen_lt hlt)
  case decodes => exact decode_of_opcode hop

end Sys2Proof
end

section
/-!
Load and Store (45_loadstore.md). Where both complete they differ; their four faults are the same and are tested in the
same order (R190, R191), so each fault is proved once for the two. What the memory holds is `wordOfBytes_toNat` for the
word read, and `readByte_putWord_at` and `readByte_putWord_ne` for the bytes written.
-/

namespace Sys2Proof.Machine

/-! ### Completion -/

section Completion

variable {s : State} {x a : RegIdx}

/-- The word is read before the destination is written, so the two registers may be the same (R190). -/
theorem execLoad_of_readWord_ok {v : Word} (hp : s.memPresent = true) (h : s.mem.readWord (s.readReg a) = .ok v) :
    execLoad (x : Nat) (a : Nat) s = .next (s.writeReg x v).advance := by
  simp only [execLoad, regIndex_val, hp, if_true, h]

theorem execStore_of_writeWord_ok {m : Memory} (hp : s.memPresent = true)
    (h : s.mem.writeWord (s.readReg a) (s.readReg x) = .ok m) :
    execStore (x : Nat) (a : Nat) s = .next (s.setMem m).advance := by
  simp only [execStore, regIndex_val, hp, if_true, h]

end Completion

/-! ### The faults, last tested first -/

section Faults

variable {s : State} {x a : RegIdx}

/-- The error of the address check is the fault the CPU takes (20_memory.md R57). -/
theorem loadStore_of_check_error {e : MemError} (hp : s.memPresent = true) (h : checkAddr (s.readReg a) = some e) :
    execLoad (x : Nat) (a : Nat) s = .next (s.raise e.kind s.pc) ∧
      execStore (x : Nat) (a : Nat) s = .next (s.raise e.kind s.pc) := by
  obtain ⟨hread, hwrite⟩ := Memory.access_of_check_error (m := s.mem) (v := s.readReg x) h
  constructor
  · simp only [execLoad, regIndex_val, hp, if_true, hread, faultAtPc]
  · simp only [execStore, regIndex_val, hp, if_true, hwrite, faultAtPc]

theorem loadStore_of_beyond (hp : s.memPresent = true) (ha : (s.readReg a).toNat % 4 = 0)
    (hb : 65532 < (s.readReg a).toNat) :
    execLoad (x : Nat) (a : Nat) s = .next (s.raise .memoryOutOfBounds s.pc) ∧
      execStore (x : Nat) (a : Nat) s = .next (s.raise .memoryOutOfBounds s.pc) :=
  loadStore_of_check_error hp (checkAddr_of_beyond ha hb)

theorem loadStore_of_unaligned (hp : s.memPresent = true) (ha : (s.readReg a).toNat % 4 ≠ 0) :
    execLoad (x : Nat) (a : Nat) s = .next (s.raise .unalignedMemoryAccess s.pc) ∧
      execStore (x : Nat) (a : Nat) s = .next (s.raise .unalignedMemoryAccess s.pc) :=
  loadStore_of_check_error hp (checkAddr_of_unaligned ha)

/-- With no memory attached the address is not looked at (decision D16). -/
theorem loadStore_of_absent (hp : s.memPresent = false) :
    execLoad (x : Nat) (a : Nat) s = .next (s.raise .memoryNotAttached s.pc) ∧
      execStore (x : Nat) (a : Nat) s = .next (s.raise .memoryNotAttached s.pc) := by
  simp [execLoad, execStore, hp, faultAtPc]

/-- A bad index is found before anything else is tested. -/
theorem loadStore_of_badReg {i areg : Int} (h : BadReg i ∨ BadReg areg) (s : State) :
    execLoad i areg s = .next (s.raise .registerOutOfRange s.pc) ∧
      execStore i areg s = .next (s.raise .registerOutOfRange s.pc) := by
  unfold execLoad execStore
  rcases h with hreg | hareg
  · rw [regIndex_of_bad hreg]
    exact ⟨rfl, rfl⟩
  · rw [regIndex_of_bad hareg]
    cases regIndex i <;> exact ⟨rfl, rfl⟩

end Faults

end Sys2Proof.Machine

namespace Sys2Proof

open Sys2Proof.Machine

/-- Settles O18: a valid address reads the word of its four bytes; the other four cases are the faults, and Load's row
of the opcode map follows. -/
theorem loadCompletesOrFaults : Obligations.LoadCompletesOrFaults := by
  unfold Obligations.LoadCompletesOrFaults
  refine ⟨?completes, fun s d r hp ha hb => ?beyond, fun s d r hp ha => ?unaligned, fun s d r hp => ?absent,
    fun s dst areg hbad => ?badReg, fun w hop => ?decodes⟩
  case completes =>
    rintro s d r ea rfl hp ha hb
    exact ⟨_, wordOfBytes_toNat _ _ _ _, execLoad_of_readWord_ok hp (Memory.readWord_of_valid ha hb)⟩
  case beyond => exact (loadStore_of_beyond hp ha hb).1
  case unaligned => exact (loadStore_of_unaligned hp ha).1
  case absent => exact (loadStore_of_absent hp).1
  case badReg => exact (loadStore_of_badReg hbad s).1
  case decodes => exact decode_of_opcode hop

/-- Settles O19: a valid address gets the word's four bytes and the memory keeps the others; the other four cases are
Load's faults, and Store's row of the opcode map follows. -/
theorem storeCompletesOrFaults : Obligations.StoreCompletesOrFaults := by
  unfold Obligations.StoreCompletesOrFaults
  refine ⟨?completes, fun s r q hp ha hb => ?beyond, fun s r q hp ha => ?unaligned, fun s r q hp => ?absent,
    fun s src areg hbad => ?badReg, fun w hop => ?decodes⟩
  case completes =>
    rintro s r q ea hm rfl hp ha hb
    exact ⟨s.mem.putWord (s.readReg q).toNat (s.readReg r),
      execStore_of_writeWord_ok hp (Memory.writeWord_of_valid ha hb),
      fun i hi => Memory.readByte_putWord_at hm (by omega) _ hi,
      fun a hout => Memory.readByte_putWord_ne _ _ hout⟩
  case beyond => exact (loadStore_of_beyond hp ha hb).2
  case unaligned => exact (loadStore_of_unaligned hp ha).2
  case absent => exact (loadStore_of_absent hp).2
  case badReg => exact (loadStore_of_badReg hbad s).2
  case decodes => exact decode_of_opcode hop

end Sys2Proof
end

section
/-!
The faults (60_exceptions.md): a bad register index comes before every other test (R201), a fault that an instruction
records is of its row of the fault table (R223), the two faults of the loop stand at their own places before dispatch
(R207, R209), and a bad address in a call of the host is the host's error, not the CPU's (R222).
-/

namespace Sys2Proof.Machine

/-! ### What an instruction records -/

theorem badReg_of_exists_pair {x y : Int} (h : ∃ f ∈ [x, y], BadReg f) : BadReg x ∨ BadReg y := by
  obtain ⟨f, hf, hbad⟩ := h
  rcases List.mem_pair.1 hf with rfl | rfl
  · exact .inl hbad
  · exact .inr hbad

/-- A bad index is found first, whatever else is wrong with the instruction or the state (R201). -/
theorem exec_of_badReg {i : Instr} (h : ∃ f ∈ usedRegFields i, BadReg f) (s : State) :
    exec i s = .next (s.raise .registerOutOfRange s.pc) := by
  cases i with
  | loadConst dst imm =>
    obtain ⟨f, hf, hbad⟩ := h
    cases List.mem_singleton.1 hf
    exact execLoadConst_of_badReg hbad imm s
  | add dst src => exact execArith_of_badReg (badReg_of_exists_pair h) .add s
  | subtract dst src => exact execArith_of_badReg (badReg_of_exists_pair h) .subtract s
  | multiply dst src => exact execArith_of_badReg (badReg_of_exists_pair h) .multiply s
  | divide dst src => exact execArith_of_badReg (badReg_of_exists_pair h) .divide s
  | compare dst src => exact execCompare_of_badReg (badReg_of_exists_pair h) s
  | jump g | jumpIfZero g | jumpIfNotZero g =>
    obtain ⟨f, hf, -⟩ := h
    cases hf
  | load dst areg => exact (loadStore_of_badReg (badReg_of_exists_pair h) s).1
  | store src areg => exact (loadStore_of_badReg (badReg_of_exists_pair h) s).2

/-- With no error recorded before, a recorded one is the instruction's own: a completion records none. -/
theorem faults_of_errKind {i : Instr} {s t : State} {k : ErrorKind} (hs : s.errKind = none) (h : exec i s = .next t)
    (hk : t.errKind = some k) :
    k ∈ faultKinds i ∧ (k = .registerOutOfRange → ∃ f ∈ usedRegFields i, BadReg f) := by
  rcases exec_next h with hc | ⟨k', hrow, rfl, hreg⟩
  · obtain ⟨-, herr, -⟩ := hc.sameError
    rw [herr, hs] at hk
    cases hk
  · cases hk
    exact ⟨hrow, hreg⟩

theorem errKindPort_of_none {s : State} (h : s.errKind = none) : s.errKindPort = 0 := by
  simp only [State.errKindPort, h]

theorem errKindPort_of_some {s : State} {k : ErrorKind} (h : s.errKind = some k) : s.errKindPort = errorCode k := by
  simp only [State.errKindPort, h]

/-! ### The faults of the loop -/

/-- The limit is tested on the counter alone: no word is fetched (R207). -/
theorem step_at_limit {s : State} (hs : s.status = .running) (hpc : s.pc.toNat ≠ s.plen)
    (hlim : 1000000 < (s.steps + 1).toNat) : step s = .next (s.countDispatch.raise .stepLimitExceeded s.pc) :=
  step_of_ended hs (prologue_at_limit hpc hlim)

theorem fetchDecode_of_decode_error {s : State} {w : ProgWord} {e : DecodeError} (hw : s.prog[s.pc.toNat]? = some w)
    (hd : decode w = .error e) : fetchDecode s = .ended (s.raise .unknownOpcode s.pc) := by
  simp only [fetchDecode, hw, hd]

/-- A word that does not decode ends the run at dispatch, on the counted state (R209). -/
theorem step_of_decode_error {s : State} {w : ProgWord} {e : DecodeError} (hs : s.status = .running)
    (hpc : s.pc.toNat ≠ s.plen) (hle : (s.steps + 1).toNat ≤ 1000000) (hw : s.prog[s.pc.toNat]? = some w)
    (hd : decode w = .error e) : step s = .next (s.countDispatch.raise .unknownOpcode s.pc) := by
  have hfetch : prologue s = fetchDecode s.countDispatch := prologue_of_fetch hpc (Nat.not_lt.2 hle)
  have hended : fetchDecode s.countDispatch = .ended (s.countDispatch.raise .unknownOpcode s.pc) :=
    fetchDecode_of_decode_error hw hd
  exact step_of_ended hs (hfetch.trans hended)

/-! ### The host's memory calls -/

section HostMemory

variable {s : State} {addr : Word}

/-- A bad address is told to the host, and nothing else happens (R222). -/
theorem hostMemory_of_check_error {e : MemError} (hs : s.status ≠ .running) (h : checkAddr addr = some e) (v : Word) :
    hostAct (.readWord addr) s = .next (s, .memError e) ∧
      hostAct (.writeWord addr v) s = .next (s, .memError e) := by
  obtain ⟨hread, hwrite⟩ := Memory.access_of_check_error (m := s.mem) (v := v) h
  simp only [hostAct_of_not_running hs, hostEffect, hread, hwrite, and_self]

theorem hostMemory_of_valid (hs : s.status ≠ .running) (h : checkAddr addr = none) (v : Word) :
    (∃ w, hostAct (.readWord addr) s = .next (s, .word w)) ∧
      hostAct (.writeWord addr v) s = .next (s.setMem (s.mem.putWord addr.toNat v), .done) := by
  obtain ⟨ha, hb⟩ := checkAddr_eq_none.1 h
  rw [hostAct_of_not_running hs, hostAct_of_not_running hs]
  constructor
  · simp only [hostEffect, Memory.readWord_of_valid ha hb]
    exact ⟨_, rfl⟩
  · simp only [hostEffect, Memory.writeWord_of_valid ha hb]

/-- Whatever the address, the two calls write nothing but the memory. -/
theorem hostMemory_keeps_cpu (hs : s.status ≠ .running) (addr v : Word) :
    (∃ reply, hostAct (.readWord addr) s = .next (s, reply)) ∧
      ∃ m reply, hostAct (.writeWord addr v) s = .next (s.setMem m, reply) := by
  cases hc : checkAddr addr with
  | some e =>
    obtain ⟨hread, hwrite⟩ := hostMemory_of_check_error hs hc v
    exact ⟨⟨_, hread⟩, s.mem, _, hwrite⟩
  | none =>
    obtain ⟨⟨w, hread⟩, hwrite⟩ := hostMemory_of_valid hs hc v
    exact ⟨⟨_, hread⟩, _, _, hwrite⟩

end HostMemory

end Sys2Proof.Machine

namespace Sys2Proof

open Sys2Proof.Machine

/-- Settles O20, by `exec_answers`. -/
theorem everyInstructionAnswersNext : Obligations.EveryInstructionAnswersNext := by
  unfold Obligations.EveryInstructionAnswersNext
  exact exec_answers

/-- Settles O27: a bad index is found first, and RegisterOutOfRange is recorded for nothing else. -/
theorem registerOutOfRangeExactly : Obligations.RegisterOutOfRangeExactly := by
  unfold Obligations.RegisterOutOfRangeExactly
  refine ⟨rfl, fun i s => ⟨fun hbad => exec_of_badReg hbad s, fun hs hgood t h hk => ?_⟩⟩
  obtain ⟨-, hreg⟩ := faults_of_errKind hs h hk
  obtain ⟨f, hf, hbad⟩ := hreg rfl
  exact hgood f hf hbad

/-- Settles O28: the recorded fault is the instruction's own, hence of its row. -/
theorem faultTableComplete : Obligations.FaultTableComplete := by
  unfold Obligations.FaultTableComplete
  intro i s t k hs h hk
  obtain ⟨hrow, -⟩ := faults_of_errKind hs h hk
  exact hrow

/-- Settles O30: the nine codes by evaluating them, the port by what is recorded. -/
theorem errorCodesOfTheList : Obligations.ErrorCodesOfTheList := by
  unfold Obligations.ErrorCodesOfTheList
  exact ⟨by decide, fun _ => errKindPort_of_none, fun _ _ => errKindPort_of_some⟩

/-- Settles O39, by `step_at_limit`: below `plen` the run does not halt first. -/
theorem stepLimitFaultsBeforeFetch : Obligations.StepLimitFaultsBeforeFetch := by
  unfold Obligations.StepLimitFaultsBeforeFetch
  intro s hs hpc hlim
  exact step_at_limit hs hpc.ne hlim

/-- Settles O40: the opcode map has no row beyond 10, and a word without a row ends the run at dispatch. -/
theorem unknownOpcodeFaultsAtDispatch : Obligations.UnknownOpcodeFaultsAtDispatch := by
  unfold Obligations.UnknownOpcodeFaultsAtDispatch
  intro s w hs hpc hle hw hop
  have hd : decode w = .error (.unknownOpcode (w.extractLsb' 0 8)) := selectInstr_of_opcode_gt (r := decodeRecord w) hop
  exact step_of_decode_error hs hpc.ne hle hw hd

/-- Settles O58: what the calls leave at every address, then the two errors in the order of the check. -/
theorem hostMemoryCallsLeaveCpu : Obligations.HostMemoryCallsLeaveCpu := by
  unfold Obligations.HostMemoryCallsLeaveCpu
  intro s addr v hs
  obtain ⟨hread, hwrite⟩ := hostMemory_keeps_cpu hs addr v
  exact ⟨hread, hwrite, fun ha => hostMemory_of_check_error hs (checkAddr_of_unaligned ha) v,
    fun ha hb => hostMemory_of_check_error hs (checkAddr_of_beyond ha hb) v⟩

end Sys2Proof
end
